-- ==== Sys2Proof/Word.lean ====
section
/-! DEFINITION. The words the QC8 counts and encodes with, and the numbers that name its stations.

Bit vectors stand where the manual wraps or encodes (bytes of a telegram, move numbers, the quay clock);
the numbers of cranes, gangs, gates, lanes and areas are finite indexes, so that no number outside the berth
can be written down. -/

namespace Sys2Proof

/-- One character of a telegram, and every one-byte serial or counter of the part. -/
abbrev Byte := BitVec 8

/-- A move number of two bytes, 1 to 65535 (00_scope.md, Move numbers); 0 on the wire stands for "no move". -/
abbrev MoveNo := BitVec 16

/-- A quay clock value in deciseconds, 32 bits wide (R45). -/
abbrev Clock := BitVec 32

/-- A crane, numbered 0 to 7 from west to east. -/
abbrev CraneNo := Fin 8

/-- A lashing gang, numbered 0 to 5. -/
abbrev GangNo := Fin 6

/-- A truck-lane gate unit, numbered 0 to 7. -/
abbrev GateNo := Fin 8

/-- A truck lane, numbered 0 to 15. -/
abbrev LaneNo := Fin 16

/-- A lashing area, numbered 0 to 31. -/
abbrev AreaNo := Fin 32

/-- The age of the clock value `since` at the clock value `now`: the later less the earlier modulo 2^32 (R45). -/
def age (now since : Clock) : Nat := (now - since).toNat

/-- A natural number as one byte of a telegram. -/
def byte (n : Nat) : Byte := BitVec.ofNat 8 n

end Sys2Proof
end

