-- ==== Sys2Proof/Syntax.lean ====
section
/-! DEFINITION. The commands of the QC8: one constructor for each row of spec/opcode_table.json.

A row whose event brings something from outside (a character, a telegram's end, a contact level) carries it as
operands. A row that names one of several like things (a crane, a lane) carries its number. A row by which the
telegram router takes a telegram carries nothing: the telegram is the head of the inbound queue (R160). -/

namespace Sys2Proof

/-- A character as a line receiver has it when the character ends (TABLE 50, R154): the data, the mark bit, the
level of the parity bit (looked at only where parity is in use) and whether the first stop bit was marking. -/
structure RxChar where
  data : Byte
  mark : Bool
  parity : Bool
  stop : Bool
  deriving DecidableEq, Repr

/-- The ways in which the uplink receiver discards a telegram it is collecting, other than by a gap (R157). -/
inductive DiscardCause where
  /-- a character had a framing error -/
  | framing
  /-- a character had a parity error -/
  | parity
  /-- the length character gave this value, more than 120 -/
  | length (given : Byte)
  /-- an error-free character with mark bit 1 arrived and starts a telegram of its own -/
  | newMark (c : RxChar)
  /-- the last check character arrived and the check failed -/
  | check (kind sequence : Byte) (body : List Byte) (received : BitVec 16)
  deriving DecidableEq, Repr

/-- The ways in which a reply being collected on the field line ends, other than by a gap (R146, R147). -/
inductive ReplyEnd where
  /-- a character had a framing error -/
  | framing
  /-- a character had a parity error -/
  | parity
  /-- the length character gave this value -/
  | length (given : Byte)
  /-- an error-free character with mark bit 1 arrived before the reply was complete -/
  | newMark
  /-- the last check character arrived: the characters after the mark character, and the check received -/
  | telegram (kind sequence : Byte) (body : List Byte) (received : BitVec 16)
  deriving DecidableEq, Repr

/-- The commands, in the order of spec/opcode_table.json. -/
inductive Instr where
  | powerOn
  | resetAsserted
  | resetNegated
  | stopContactChange (closed : Bool)
  | contactDebounced
  | periodicCallCheck (k : CraneNo)
  | deferTimerExpiry (k : CraneNo)
  | silenceExpiry (k : CraneNo)
  | handover (l : LaneNo)
  | uplinkTelegramComplete (kind sequence : Byte) (body : List Byte) (received : BitVec 16)
  | uplinkTelegramDiscarded (cause : DiscardCause)
  | uplinkGap
  | breakRecognised
  | breakEnd
  | transmitStart
  | responseSent
  | reportSent
  | orderAdd
  | orderAmend
  | orderCancel
  | hold
  | resume
  | skip
  | promote
  | withdraw
  | returnCrane
  | ident
  | status
  | read
  | setParam
  | loadRoster
  | loadLanes
  | loadBays
  | loadAreas
  | loadPollplan
  | ackSummary
  | holdBerth
  | releaseBerth
  | resetCoord
  | gangClear
  | passThrough
  | routeRefusedUnknown
  | unusedMark
  | visit
  | pollSent
  | replyWindowClose
  | fieldGap
  | fieldReplyEnd (e : ReplyEnd)
  | uplinkMarkCharacter (c : RxChar)
  | replyMarkCharacter (c : RxChar)
  deriving DecidableEq, Repr

end Sys2Proof
end

