-- ==== Sys2Proof/WellFormed.lean ====
section
/-! DEFINITION. Which commands can be sent at all: operands that the manual's telegram layout admits. -/

namespace Sys2Proof

/-- A body of at most 120 characters (TABLE 51). -/
def bodyFits (body : List Byte) : Bool := body.length ≤ 120

/-- A discard names what R157 says: an excess length is above 120, and a new mark character has mark bit 1. -/
def DiscardCause.wf : DiscardCause → Bool
  | .framing => true
  | .parity => true
  | .length given => 120 < given.toNat
  | .newMark c => c.mark
  | .check _ _ body _ => bodyFits body

/-- A reply that reached its check had a body of at most 120 characters, and an excess length is above 120 (R147). -/
def ReplyEnd.wf : ReplyEnd → Bool
  | .framing => true
  | .parity => true
  | .length given => 120 < given.toNat
  | .newMark => true
  | .telegram _ _ body _ => bodyFits body

/-- The operand checks of each command. -/
def Instr.wf : Instr → Bool
  | .powerOn => true
  | .resetAsserted => true
  | .resetNegated => true
  | .stopContactChange _ => true
  | .contactDebounced => true
  | .periodicCallCheck _ => true
  | .deferTimerExpiry _ => true
  | .silenceExpiry _ => true
  | .handover _ => true
  | .uplinkTelegramComplete _ _ body _ => bodyFits body
  | .uplinkTelegramDiscarded cause => cause.wf
  | .uplinkGap => true
  | .breakRecognised => true
  | .breakEnd => true
  | .transmitStart => true
  | .responseSent => true
  | .reportSent => true
  | .orderAdd => true
  | .orderAmend => true
  | .orderCancel => true
  | .hold => true
  | .resume => true
  | .skip => true
  | .promote => true
  | .withdraw => true
  | .returnCrane => true
  | .ident => true
  | .status => true
  | .read => true
  | .setParam => true
  | .loadRoster => true
  | .loadLanes => true
  | .loadBays => true
  | .loadAreas => true
  | .loadPollplan => true
  | .ackSummary => true
  | .holdBerth => true
  | .releaseBerth => true
  | .resetCoord => true
  | .gangClear => true
  | .passThrough => true
  | .routeRefusedUnknown => true
  | .unusedMark => true
  | .visit => true
  | .pollSent => true
  | .replyWindowClose => true
  | .fieldGap => true
  | .fieldReplyEnd e => e.wf
  | .uplinkMarkCharacter c => c.mark
  | .replyMarkCharacter c => c.mark

end Sys2Proof
end

