-- ==== Sys2Proof/Config.lean ====
section
/-! DEFINITION. What the part fixes: its capacities and identity (R171), the kind codes (TABLE 52), the parameter
table (TABLE 62) and the default report levels (TABLE 60); and the one order that the manual leaves open (R29). -/

namespace Sys2Proof.Config

/-- Records in the move pool (R1). -/
def poolCapacity : Nat := 512
/-- Records in one crane queue (R1). -/
def queueCapacity : Nat := 96
/-- Telegrams in the inbound queue (R158). -/
def inboundCapacity : Nat := 8
/-- Entries in the forward queue (R145). -/
def forwardCapacity : Nat := 16
/-- Reports in the report queue (R166). -/
def reportCapacity : Nat := 64
/-- Slots of the poll plan (R142). -/
def pollCapacity : Nat := 32
/-- Characters in a body (TABLE 51). -/
def bodyCapacity : Nat := 120

/-- Vendor code, part code and revision of the part (R171). -/
def vendorCode : Nat := 0x0A17
def partCode : Nat := 0x0C08
def revision : Nat := 1

/-! ### Kind codes (TABLE 52) -/

def kOrderAdd : Byte := 0x10
def kOrderAmend : Byte := 0x11
def kOrderCancel : Byte := 0x12
def kDirective : Byte := 0x18
def kIdent : Byte := 0x20
def kStatus : Byte := 0x21
def kRead : Byte := 0x22
def kSetParam : Byte := 0x23
def kLoadRoster : Byte := 0x24
def kLoadLanes : Byte := 0x25
def kLoadBays : Byte := 0x26
def kLoadAreas : Byte := 0x27
def kLoadPollplan : Byte := 0x28
def kAckSummary : Byte := 0x29
def kHoldBerth : Byte := 0x2A
def kReleaseBerth : Byte := 0x2B
def kResetCoord : Byte := 0x2C
def kGangClear : Byte := 0x2D
def kResponse : Byte := 0x30
def kReport : Byte := 0x31
def kPoll : Byte := 0x40
def kJoblist : Byte := 0x41
def kWait : Byte := 0x42
def kGangJob : Byte := 0x43
def kGateLight : Byte := 0x44
def kCraneStatus : Byte := 0x50
def kGangStatus : Byte := 0x51
def kGateStatus : Byte := 0x52

/-- The kinds 0x80 to 0xBF, carried between the terminal system and a field station. -/
def isPassThrough (kind : Byte) : Bool := 0x80 ≤ kind.toNat && kind.toNat ≤ 0xBF

/-! ### Parameters (TABLE 62) -/

/-- A parameter's number. -/
abbrev Param := Fin 40

def SEP : Param := 0
def QUAY_LEN : Param := 1
def WINDOW : Param := 2
def CALL_DEPTH : Param := 3
def LASH_LEAD : Param := 4
def CALL_MARGIN : Param := 5
def CYCLE_MIN : Param := 6
def CYCLE_MAX : Param := 7
def SMOOTH_WEIGHT : Param := 8
def CYCLE_INIT_SINGLE : Param := 9
def CYCLE_INIT_DUAL : Param := 10
def ANSWER_MODE : Param := 11
def DEFER_LIMIT : Param := 12
def REPLY_WINDOW : Param := 13
def WIND_STOP : Param := 14
def WIND_RESUME : Param := 15
def CALM_INTERVAL : Param := 16
def SILENT_WITHDRAW : Param := 17
def TWIN_MASS_LIMIT : Param := 18
/-- The level of report class `c`, classes 0 to 12. -/
def CLASS_LEVEL (c : Fin 13) : Param := ⟨19 + c.val, by omega⟩
def ATTENTION_LEVEL : Param := 32
def DEVICE_MARK : Param := 33
def UPLINK_DIVIDER : Param := 34
def UPLINK_PARITY : Param := 35
def UPLINK_STOP : Param := 36
def FIELD_DIVIDER : Param := 37
def FIELD_PARITY : Param := 38
def FIELD_STOP : Param := 39

/-- A row of TABLE 62: the ends of the range, and the default. -/
structure ParamRow where
  low : Nat
  high : Nat
  default : Nat
  deriving DecidableEq, Repr

/-- TABLE 62, with the default levels of TABLE 60 for CLASS_LEVEL, and codes of TABLE 56 for ANSWER_MODE and the
parities. -/
def paramTable : Vector ParamRow 40 :=
  #v[⟨100, 1000, 270⟩, ⟨1000, 16000, 6000⟩, ⟨1, 8, 3⟩, ⟨2, 4, 3⟩, ⟨1, 16, 6⟩, ⟨0, 600, 60⟩, ⟨300, 1500, 450⟩,
    ⟨600, 6000, 3000⟩, ⟨1, 16, 4⟩, ⟨300, 6000, 1200⟩, ⟨300, 6000, 1700⟩, ⟨0, 1, 1⟩, ⟨5, 300, 50⟩, ⟨10, 250, 40⟩,
    ⟨50, 400, 200⟩, ⟨30, 400, 160⟩, ⟨100, 9000, 3000⟩, ⟨100, 6000, 1200⟩, ⟨100, 800, 650⟩,
    ⟨0, 3, 3⟩, ⟨0, 3, 3⟩, ⟨0, 3, 3⟩, ⟨0, 3, 2⟩, ⟨0, 3, 2⟩, ⟨0, 3, 2⟩, ⟨0, 3, 2⟩, ⟨0, 3, 1⟩, ⟨0, 3, 1⟩, ⟨0, 3, 1⟩,
    ⟨0, 3, 1⟩, ⟨0, 3, 0⟩, ⟨0, 3, 0⟩,
    ⟨0, 3, 3⟩, ⟨0x01, 0x3F, 0x3C⟩, ⟨0, 255, 23⟩, ⟨0, 2, 0⟩, ⟨1, 2, 1⟩, ⟨0, 255, 3⟩, ⟨0, 2, 1⟩, ⟨1, 2, 1⟩]

/-- FREE VALUE. Where one event calls for the evaluation of several cranes, the manual lets any of them be taken
first (R29). This constant has no value that Lean can see: for each use of it (counted in the state) it lists some
cranes, which go first in its order. See notes/assumptions/2.md. -/
opaque evaluationOrder : Nat → List CraneNo

end Sys2Proof.Config
end

