-- ==== Sys2Proof/Machine/State.lean ====
section
/-! DEFINITION. The state of the QC8: every record, queue, timer, mark, flag and line that the manual gives it, as
plain data, and its value after power-on (R177). INVENTORY.md lists each field with the rule that names it. -/

namespace Sys2Proof.Machine

/-! ### Moves (Chapter 1) -/

/-- The part of a bay that a leg touches. -/
inductive Zone where
  | hold
  | deck
  deriving DecidableEq, Repr

/-- The size of a box: 20, 40 or 45 feet (R4). -/
inductive BoxSize where
  | ft20
  | ft40
  | ft45
  deriving DecidableEq, Repr

/-- One container: its identifier of eleven characters, size, and gross mass in units of 100 kg. -/
structure Box where
  identifier : List Byte
  size : BoxSize
  mass : Nat
  deriving DecidableEq, Repr

/-- Where a RESTOW leg sets its boxes: the to-zone, and the to-bay where it is not the bay lifted from (R3). -/
structure Restow where
  toZone : Zone
  toBay : Option Nat
  deriving DecidableEq, Repr

/-- A leg: its bay and zone, the place a RESTOW sets into, and one or two boxes. -/
structure Leg where
  bay : Nat
  zone : Zone
  restow : Option Restow
  box1 : Box
  box2 : Option Box
  deriving DecidableEq, Repr

/-- The kind of a move (TABLE 8). -/
inductive MoveKind where
  | discharge
  | load
  | dual
  | restow
  deriving DecidableEq, Repr

/-- The state of a move record (TABLE 9). -/
inductive MoveState where
  | pending
  | ready
  | staged
  | active
  deriving DecidableEq, Repr

/-- A lift or a set that a crane reports: from or onto the vessel (V), from or onto a truck in the lane (L). -/
inductive CraneEvent where
  | pickV
  | setV
  | pickL
  | setL
  deriving DecidableEq, Repr

/-- Leg progress (R72): the next expected event, and which boxes of the current leg are on the spreader. -/
structure Progress where
  next : CraneEvent
  lift1 : Bool
  lift2 : Bool
  deriving DecidableEq, Repr

/-- A move record (TABLE 7). Its crane is the crane whose queue holds it (R1). -/
structure MoveRecord where
  number : MoveNo
  kind : MoveKind
  legs : List Leg
  afterMove : Option MoveNo
  state : MoveState
  lane : Option LaneNo
  called : Bool
  readyTime : Option Clock
  activation : Option Clock
  progress : Option Progress
  holdOverlap : Bool
  abandoned : Bool
  deriving DecidableEq, Repr

/-! ### Cranes (Chapters 2, 3, 4, 7) -/

/-- The mode of a crane (TABLE 14). -/
inductive Mode where
  | absent
  | inService
  | withdrawn
  deriving DecidableEq, Repr

/-- The state of a field station (R141). -/
inductive StationState where
  | unknown
  | active
  | silent
  deriving DecidableEq, Repr

/-- The JOBLIST mark (R38). -/
inductive JobMark where
  | clear
  | full
  | empty
  deriving DecidableEq, Repr

/-- Why a crane that wants a job gets none (TABLE 17). -/
inductive BlockReason where
  | queueEmpty
  | craneHeld
  | precedence
  | lashing
  | gang
  | lane
  | clearance
  deriving DecidableEq, Repr

/-- The directives (TABLE 42). -/
inductive DirectiveKind where
  | hold
  | resume
  | skip
  | promote
  | withdraw
  | returnCrane
  deriving DecidableEq, Repr

/-- A record of the pending directive slot (R119). -/
structure PendingDirective where
  number : Byte
  kind : DirectiveKind
  move : Option MoveNo
  received : Clock
  deriving DecidableEq, Repr

/-- The pair of moves that a crane says it holds (R38). -/
structure View where
  active : Option MoveNo
  staged : Option MoveNo
  deriving DecidableEq, Repr

/-- A crane context (TABLE 14) with the pending directive slot (R119) and the silence start (R127). The station state
of the crane stands in its station record (R141). -/
structure Crane where
  mode : Mode
  held : Bool
  fault : Bool
  active : Option MoveNo
  staged : Option MoveNo
  position : Option Nat
  wind : Nat
  serial : Option Byte
  view : Option View
  jobWanted : Bool
  deferStart : Option Clock
  lastCompletion : Option Clock
  jobMark : JobMark
  waitMark : Option BlockReason
  directive : Option PendingDirective
  silenceStart : Option Clock
  deriving DecidableEq, Repr

/-- The cycle record of a crane: two smoothed cycle times in sixteenths of a ds (R46). -/
structure Cycle where
  single : Nat
  dual : Nat
  deriving DecidableEq, Repr

/-- A roster entry: parking position and home lanes in the order the entry gave them (R83). -/
structure RosterEntry where
  parking : Nat
  homeLanes : List LaneNo
  deriving DecidableEq, Repr

/-! ### Lanes (Chapter 5) -/

/-- The use of a lane (TABLE 27); `shared k` is SHARED(k, k+1). -/
inductive LaneUse where
  | unused
  | home (k : CraneNo)
  | shared (k : Fin 7)
  deriving DecidableEq, Repr

/-- A lane slot (TABLE 28): only FREE carries a stray flag, and only RESERVED, CALLED and ARRIVED name a move. -/
inductive Slot where
  | free (stray : Bool)
  | reserved (m : MoveNo)
  | called (m : MoveNo)
  | arrived (m : MoveNo)
  | worked
  deriving DecidableEq, Repr

/-- A request on a shared lane: the crane that raised it, and the move it raised it for (R87). -/
structure Request where
  crane : CraneNo
  move : MoveNo
  deriving DecidableEq, Repr

/-- A lane: its row of the lane map (TABLE 27), its slot, its presence filter (R91), its owner and request (R87). -/
structure Lane where
  use : LaneUse
  travel : Nat
  activeLow : Bool
  settle : Nat
  slot : Slot
  present : Bool
  candidate : Option Clock
  owner : Option CraneNo
  request : Option Request
  deriving DecidableEq, Repr

/-- The signal that a gate shows for a lane (R97). -/
inductive Signal where
  | closed
  | enter
  | stay
  | leave
  deriving DecidableEq, Repr

/-! ### Lashing (Chapter 6) -/

/-- A row of the bay map (TABLE 35). -/
structure BayRow where
  bay : Nat
  position : Nat
  area : AreaNo
  deriving DecidableEq, Repr

/-- The deck state of an area (TABLE 36). -/
inductive Deck where
  | lashed
  | unlashWait
  | unlashing
  | opened
  | lashWait
  | lashing
  deriving DecidableEq, Repr

/-- An entry of the area table (R102). -/
structure Area where
  deck : Deck
  lashRequired : Bool
  gang : Option GangNo
  deriving DecidableEq, Repr

/-- The kind of a gang job (R108). -/
inductive JobKind where
  | unlash
  | lash
  deriving DecidableEq, Repr

/-- A gang job (R108). -/
structure Job where
  area : AreaNo
  kind : JobKind
  deriving DecidableEq, Repr

/-- The state of a gang (TABLE 39), with its job in the two states that have one. -/
inductive GangState where
  | off
  | idle
  | sent (j : Job)
  | working (j : Job)
  deriving DecidableEq, Repr

/-- The GANG_JOB mark (R115). -/
inductive GangMark where
  | clear
  | job
  | cancel
  deriving DecidableEq, Repr

/-- A gang record (TABLE 39). The station state of the gang stands in its station record (R141). -/
structure Gang where
  state : GangState
  serial : Option Byte
  mark : GangMark
  deriving DecidableEq, Repr

/-- An event that a gang reports (R109). -/
inductive GangEvent where
  | onArea
  | done
  deriving DecidableEq, Repr

/-! ### The berth (Chapter 8) -/

/-- The berth state (TABLE 44). -/
inductive BerthState where
  | running
  | holding
  | held
  deriving DecidableEq, Repr

/-- The causes of a berth hold (R130). -/
inductive BerthCause where
  | contact
  | wind
  | command
  deriving DecidableEq, Repr

/-- The cause set: each cause at most once (R130). -/
structure Causes where
  contact : Bool
  wind : Bool
  command : Bool
  deriving DecidableEq, Repr

/-- The berth hold unit: state, cause set, contact debounce (R132) and calm timer (R137). `rawClosed` is the level at
the stop contact input. -/
structure Berth where
  state : BerthState
  causes : Causes
  rawClosed : Bool
  lastChange : Clock
  closed : Bool
  calmStart : Option Clock
  deriving DecidableEq, Repr

/-! ### Telegrams and reports (Chapters 9, 10, 11) -/

/-- A telegram (TABLE 51). Its length and its check follow from these. -/
structure Telegram where
  mark : Byte
  kind : Byte
  sequence : Byte
  body : List Byte
  deriving DecidableEq, Repr

/-- A field station: crane, gang or gate unit. -/
inductive Station where
  | crane (k : CraneNo)
  | gang (g : GangNo)
  | gate (u : GateNo)
  deriving DecidableEq, Repr

/-- The outcome of an order, directive or management telegram (TABLE 56). -/
inductive Result where
  | accepted
  | clamped
  | busy
  | collision
  | range
  | full
  | unknown
  | duplicate
  | state
  | contact
  | wind
  deriving DecidableEq, Repr

/-- The causes for which the uplink port keeps an error latch (R157). -/
inductive LineFault where
  | framing
  | parity
  | length
  | incomplete
  | check
  | overflow
  deriving DecidableEq, Repr

/-- The fault of a reply in a FIELD_BAD report (TABLE 63), with the value it carries. -/
inductive FieldFault where
  | framing
  | parity
  | length
  | incomplete
  | check
  | wrongMark (received : Byte)
  | wrongKind (received : Byte)
  deriving DecidableEq, Repr

/-- Why a slot was released (R95). -/
inductive ReleaseCause where
  | voided
  | withdrawn
  | berthHold
  deriving DecidableEq, Repr

/-- The cause of a MOVE_STATE report (R19, R20). -/
inductive MoveCause where
  | voidedCancel
  | voidedSkip
  | abandoned
  deriving DecidableEq, Repr

/-- The cause of an AREA report (TABLE 38). -/
inductive AreaCause where
  | unlashQueued
  | unlashWithdrawn
  | lashQueued
  | lashWithdrawn
  | dispatched
  | done
  | returned
  | loaded
  deriving DecidableEq, Repr

/-- What a BERTH report says (TABLE 45). -/
inductive BerthReport where
  | entered (new : BerthState) (added : BerthCause) (set : Causes)
  | causeAdded (state : BerthState) (added : BerthCause) (set : Causes)
  | toHeld (set : Causes)
  | toHolding (set : Causes) (crane : Option CraneNo)
  | released (former : BerthState) (removed : Causes)
  deriving DecidableEq, Repr

/-- What a GANG report says beside the gang (TABLE 40). -/
inductive GangReport where
  | signedOn
  | signedOff (returned : Option Job)
  | dispatched (j : Job)
  | onArea (a : AreaNo)
  | done (j : Job) (onAreaSeen : Bool)
  | cleared (returned : Option Job)
  | eventFault (serial : Byte) (event : GangEvent) (area : AreaNo) (state : GangState)
  | serialGap (expected received : Byte)
  | badReply
  deriving DecidableEq, Repr

/-- What a LANE report says (TABLE 32). -/
inductive LaneReport where
  | stray (l : LaneNo)
  | leftEarly (l : LaneNo) (m : MoveNo)
  | presenceNotSeen (l : LaneNo) (m : MoveNo)
  | badReply (u : GateNo)
  deriving DecidableEq, Repr

/-- What a CRANE report says beside the crane (TABLE 25). -/
inductive CraneReport where
  | badReply
  | fault
  | faultCleared
  | serialGap (expected received : Byte)
  | eventFault (serial : Byte) (event : CraneEvent) (move : MoveNo) (active : Option MoveNo) (next : Option CraneEvent)
  | boxLeft (move : MoveNo) (event : CraneEvent) (identifier : List Byte)
  | unknownMove (number : MoveNo)
  deriving DecidableEq, Repr

/-- What a LINE report says (TABLE 59). -/
inductive LineReport where
  | uplink (f : LineFault) (mark : Option Byte)
  | unusedMark (mark kind : Byte)
  | forwardFull (mark : Byte)
  | forwardDiscarded (mark : Byte)
  | fieldBad (mark : Byte) (f : FieldFault)
  deriving DecidableEq, Repr

/-- The way in which a directive was accepted (R121), with the abandoned move of an acceptance by silence. -/
inductive Acceptance where
  | normal
  | silence (abandoned : Option MoveNo)
  deriving DecidableEq, Repr

/-- The items of a report, by class (TABLE 63). -/
inductive Items where
  | truckCall (l : LaneNo) (m : MoveNo) (ahead : Nat) (identifiers : List (List Byte))
  | truckCancel (l : LaneNo) (m : MoveNo) (sentAway : Bool) (c : ReleaseCause)
  | berth (r : BerthReport)
  | moveDone (m : MoveNo) (k : CraneNo)
  | moveState (m : MoveNo) (k : CraneNo) (c : MoveCause)
  | directive (k : CraneNo) (number : Byte) (kind : DirectiveKind) (m : Option MoveNo) (way : Acceptance)
  | gang (g : GangNo) (r : GangReport)
  | area (a : AreaNo) (former new : Deck) (c : AreaCause)
  | lane (r : LaneReport)
  | stationSilent (st : Station) (former : StationState)
  | stationReturned (st : Station) (former : StationState)
  | crane (k : CraneNo) (r : CraneReport)
  | line (r : LineReport)
  | passUp (mark kind sequence : Byte) (body : List Byte)
  | restartBreak
  | restartCoord
  deriving DecidableEq, Repr

/-- A queued report (R166): what it says, the level and serial it took on joining, the quay clock at joining, and
whether the transmitter has it in hand (R167: such a report is not removed). -/
structure Report where
  items : Items
  level : Nat
  serial : Byte
  time : Clock
  inHand : Bool
  deriving DecidableEq, Repr

/-- The report queue in the order of joining, the report serial counter (R166), and the summary flags (R169). -/
structure Reports where
  queue : List Report
  nextSerial : Byte
  seen : Vector Bool 14
  lost : Vector Bool 14
  deriving DecidableEq, Repr

/-- Parity of a line (TABLE 56). -/
inductive Parity where
  | none
  | even
  | odd
  deriving DecidableEq, Repr

/-- The settings at which a line runs (R152, R154). -/
structure LineSettings where
  divider : Nat
  parity : Parity
  stop : Nat
  deriving DecidableEq, Repr

/-- A RESPONSE: the mark and sequence of the telegram it answers, its kind, the outcome and data (R161), and the uplink
settings that take effect once it has been sent (R165). -/
structure Response where
  mark : Byte
  sequence : Byte
  kind : Byte
  result : Result
  data : List Byte
  settings : Option LineSettings
  deriving DecidableEq, Repr

/-- The uplink receiver (R157): HUNTING, or COLLECTING a telegram that began with this mark. -/
inductive Receiver where
  | hunting
  | collecting (mark : Byte)
  deriving DecidableEq, Repr

/-- What the transmitter is sending: the RESPONSE of the response buffer, or a report of the queue. -/
inductive Sending where
  | response (t : Telegram)
  | report (t : Telegram)
  deriving DecidableEq, Repr

/-- The uplink port and the router (Chapter 10). `waiting` is the RESPONSE of a unit that finished while the response
buffer was full (R161); `cutOff` is the telegram that a break cut off (R164). -/
structure Uplink where
  receiver : Receiver
  inbound : List Telegram
  ready : Bool
  latches : Vector Bool 6
  settings : LineSettings
  buffer : Option Response
  waiting : Option Response
  sending : Option Sending
  cutOff : Option Sending
  breaking : Bool
  deriving DecidableEq, Repr

/-- A station record (R141). -/
structure StationRecord where
  state : StationState
  missed : Nat
  deriving DecidableEq, Repr

/-- Where a visit stands (R143, R146): sending up to the POLL, its reply window open (for that many ms), or collecting
the reply that began with this mark. -/
inductive VisitPhase where
  | sending
  | window (ms : Nat)
  | collecting (mark : Byte)
  deriving DecidableEq, Repr

/-- A visit under way (R143): its station, where it stands, the telegrams it has put on the field line so far, and the
line settings it runs at (R152). -/
structure Visit where
  station : Station
  phase : VisitPhase
  sent : List Telegram
  settings : LineSettings
  deriving DecidableEq, Repr

/-- The field line controller (Chapter 9). -/
structure Field where
  plan : List Byte
  nextSlot : Nat
  sequence : Byte
  forward : List Telegram
  visit : Option Visit
  deriving DecidableEq, Repr

/-! ### The whole part -/

/-- The state of the QC8. `pending` is the queue of commands that are waiting, first in, first out, and `freeCount`
counts the uses of the order the manual leaves open (Config.evaluationOrder): both are the model's own. -/
structure State where
  pending : List Instr
  freeCount : Nat
  resetAsserted : Bool
  clock : Clock
  params : Vector Nat 40
  queues : Vector (List MoveRecord) 8
  cranes : Vector Crane 8
  cycles : Vector Cycle 8
  roster : Vector (Option RosterEntry) 8
  lanes : Vector Lane 16
  gateMarks : Vector Bool 8
  bays : Vector (Option BayRow) 64
  areas : Vector Area 32
  jobs : List Job
  gangs : Vector Gang 6
  berth : Berth
  stations : Vector StationRecord 22
  field : Field
  reports : Reports
  uplink : Uplink
  deriving DecidableEq, Repr

/-- The block stops with no fault: no rule of the manual stops it, and no command of this model answers with one.
The type has no constructor, which says so; it is safe, since nothing is cut short. -/
inductive Fault
  deriving DecidableEq, Repr

/-- Why a command has no meaning. -/
inductive Refusal where
  /-- Raised only by an arm of `exec` whose command is not modelled yet; safe, since the model says nothing of it.
  No arm is: every command has its meaning. -/
  | notModelled (mnemonic : String)
  deriving DecidableEq, Repr

/-! ### Values at power-on (R177) -/

/-- Every parameter at its default (R174, R177). -/
def defaultParams : Vector Nat 40 := Vector.ofFn fun i => Config.paramTable[i].default

/-- The power-on value of a crane context (TABLE 14, R119, R127), apart from the mode ABSENT that it names. -/
def Crane.powerOn : Crane where
  mode := .absent
  held := false
  fault := false
  active := none
  staged := none
  position := none
  wind := 0
  serial := none
  view := none
  jobWanted := false
  deferStart := none
  lastCompletion := none
  jobMark := .clear
  waitMark := none
  directive := none
  silenceStart := none

/-- The power-on value of a lane: TABLE 27, and R84, R87, R91. -/
def Lane.powerOn : Lane where
  use := .unused
  travel := 0
  activeLow := false
  settle := 1
  slot := .free false
  present := false
  candidate := none
  owner := none
  request := none

/-- A value clamped into a range: the lower end wins over the upper, as a value is raised last. -/
def clamp (low high v : Nat) : Nat := max low (min high v)

/-- The initial smoothed times (R46): 16 times CYCLE_INIT, clamped to 16 times CYCLE_MIN and CYCLE_MAX. -/
def initialCycle (p : Vector Nat 40) : Cycle where
  single := clamp (16 * p[Config.CYCLE_MIN]) (16 * p[Config.CYCLE_MAX]) (16 * p[Config.CYCLE_INIT_SINGLE])
  dual := clamp (16 * p[Config.CYCLE_MIN]) (16 * p[Config.CYCLE_MAX]) (16 * p[Config.CYCLE_INIT_DUAL])

/-- The parity that a parameter's value names (TABLE 56). -/
def Parity.ofCode : Nat → Parity
  | 1 => .even
  | 2 => .odd
  | _ => .none

/-- The uplink settings that the parameters give (R154). -/
def uplinkSettings (p : Vector Nat 40) : LineSettings where
  divider := p[Config.UPLINK_DIVIDER]
  parity := Parity.ofCode p[Config.UPLINK_PARITY]
  stop := p[Config.UPLINK_STOP]

/-- The field line settings that the parameters give (R152). -/
def fieldSettings (p : Vector Nat 40) : LineSettings where
  divider := p[Config.FIELD_DIVIDER]
  parity := Parity.ofCode p[Config.FIELD_PARITY]
  stop := p[Config.FIELD_STOP]

/-- The berth hold unit at power-on and at the reset input (R132, R137, R140), with the contact input as it stands. -/
def Berth.powerOn (rawClosed : Bool) : Berth where
  state := .held
  causes := ⟨false, false, true⟩
  rawClosed := rawClosed
  lastChange := 0
  closed := false
  calmStart := none

/-- The report queue and summary at power-on (R166, R168, R169). -/
def Reports.powerOn : Reports where
  queue := []
  nextSerial := 0
  seen := Vector.replicate 14 false
  lost := Vector.replicate 14 false

/-- The uplink port at power-on (R157 to R161, R165). -/
def Uplink.powerOn : Uplink where
  receiver := .hunting
  inbound := []
  ready := true
  latches := Vector.replicate 6 false
  settings := uplinkSettings defaultParams
  buffer := none
  waiting := none
  sending := none
  cutOff := none
  breaking := false

/-- The field line controller at power-on (R142, R143, R145). -/
def Field.powerOn : Field where
  plan := []
  nextSlot := 0
  sequence := 0
  forward := []
  visit := none

/-- The part at power-on (R23, R45, R46, R84, R98, R101, R102, R108, R118, R141, R177): everything but the command
queue, the level of the two input lines and the count of free values used takes its power-on value. The bay map is empty
and every area LASHED, as R101, R102, R118 and R177 give them, against the sentence of R23 that neither kind of reset changes
them. No file of the manual rules on the conflict; the rules that state the values are followed, since to keep the area table
beside an empty job queue and gangs that are OFF would break R108. DEDUCED: notes/assumptions/37.md. -/
def State.powerOn (pending : List Instr) (freeCount : Nat) (resetAsserted rawClosed : Bool) : State where
  pending := pending
  freeCount := freeCount
  resetAsserted := resetAsserted
  clock := 0
  params := defaultParams
  queues := Vector.replicate 8 []
  cranes := Vector.replicate 8 Crane.powerOn
  cycles := Vector.replicate 8 (initialCycle defaultParams)
  roster := Vector.replicate 8 none
  lanes := Vector.replicate 16 Lane.powerOn
  gateMarks := Vector.replicate 8 true
  bays := Vector.replicate 64 none
  areas := Vector.replicate 32 ⟨.lashed, false, none⟩
  jobs := []
  gangs := Vector.replicate 6 ⟨.off, none, .clear⟩
  berth := Berth.powerOn rawClosed
  stations := Vector.replicate 22 ⟨.unknown, 0⟩
  field := Field.powerOn
  reports := Reports.powerOn
  uplink := Uplink.powerOn

/-- The part right after reset: the reset input negated, the stop contact input open (a level the manual leaves to the
berth: notes/assumptions/4.md), and no command waiting. -/
def State.reset : State := State.powerOn [] 0 false false

end Sys2Proof.Machine
end

