-- ==== Sys2Proof/Machine/Operands.lean ====
section
/-! DEFINITION. The operand forms: how a telegram's body is read and written (R155, R156, R163, R170; TABLES 50 to 56).

A reader answers `none` where the body's length does not agree with its layout or a code is not one the layout
defines. A writer is total. -/

namespace Sys2Proof.Machine

/-! ### Quantities (R156) -/

/-- Two bytes, high byte first. -/
def be16 (n : Nat) : List Byte := [byte (n / 256), byte n]

/-- Four bytes, high byte first. -/
def be32 (n : Nat) : List Byte := [byte (n / 16777216), byte (n / 65536), byte (n / 256), byte n]

/-- The quantity that two bytes hold, high byte first. -/
def of16 (hi lo : Byte) : Nat := 256 * hi.toNat + lo.toNat

/-- The move number that two bytes hold. -/
def moveOf (hi lo : Byte) : MoveNo := BitVec.ofNat 16 (of16 hi lo)

/-- A move number field that may be empty: 0 stands for none (R156). -/
def moveOpt (m : MoveNo) : Option MoveNo := if m = 0 then none else some m

def flagByte (b : Bool) : Byte := if b then 1 else 0

def moveBytes (m : MoveNo) : List Byte := be16 m.toNat

def moveOptBytes (m : Option MoveNo) : List Byte := moveBytes (m.getD 0)

def clockBytes (t : Clock) : List Byte := be32 t.toNat

/-- A quay clock value that may be absent takes five bytes (R156). -/
def clockOptBytes : Option Clock → List Byte
  | some t => 1 :: clockBytes t
  | none => [0, 0, 0, 0, 0]

/-- A gantry position or an event serial that may be absent takes two bytes, 0xFFFF where absent (R156). -/
def wordOptBytes : Option Nat → List Byte
  | some n => be16 n
  | none => [0xFF, 0xFF]

/-- An absent lane, area, gang, crane or owner is 0xFF (R156). -/
def indexOptByte : Option Nat → Byte
  | some n => byte n
  | none => 0xFF

/-- The number whose bits are these, bit 0 first. -/
def bitsToNat : List Bool → Nat
  | [] => 0
  | b :: bs => (if b then 1 else 0) + 2 * bitsToNat bs

/-! ### Codes (TABLE 56, TABLE 61, TABLE 63) -/

def MoveKind.code : MoveKind → Byte
  | .discharge => 1
  | .load => 2
  | .dual => 3
  | .restow => 4

def MoveKind.ofCode (c : Byte) : Option MoveKind :=
  if c = 1 then some .discharge else if c = 2 then some .load else if c = 3 then some .dual
  else if c = 4 then some .restow else none

def BoxSize.code : BoxSize → Nat
  | .ft20 => 1
  | .ft40 => 2
  | .ft45 => 3

def BoxSize.ofCode : Nat → Option BoxSize
  | 1 => some .ft20
  | 2 => some .ft40
  | 3 => some .ft45
  | _ => none

def DirectiveKind.code : DirectiveKind → Byte
  | .hold => 1
  | .resume => 2
  | .skip => 3
  | .promote => 4
  | .withdraw => 5
  | .returnCrane => 6

def DirectiveKind.ofCode (c : Byte) : Option DirectiveKind :=
  if c = 1 then some .hold else if c = 2 then some .resume else if c = 3 then some .skip
  else if c = 4 then some .promote else if c = 5 then some .withdraw else if c = 6 then some .returnCrane else none

def Result.code : Result → Byte
  | .accepted => 0
  | .clamped => 1
  | .busy => 2
  | .collision => 3
  | .range => 4
  | .full => 5
  | .unknown => 6
  | .duplicate => 7
  | .state => 8
  | .contact => 9
  | .wind => 10

def BlockReason.code : BlockReason → Byte
  | .queueEmpty => 1
  | .craneHeld => 2
  | .precedence => 3
  | .lashing => 4
  | .gang => 5
  | .lane => 6
  | .clearance => 7

def CraneEvent.code : CraneEvent → Byte
  | .pickV => 1
  | .setV => 2
  | .pickL => 3
  | .setL => 4

def CraneEvent.ofCode (c : Byte) : Option CraneEvent :=
  if c = 1 then some .pickV else if c = 2 then some .setV else if c = 3 then some .pickL
  else if c = 4 then some .setL else none

def GangEvent.code : GangEvent → Byte
  | .onArea => 1
  | .done => 2

def GangEvent.ofCode (c : Byte) : Option GangEvent :=
  if c = 1 then some .onArea else if c = 2 then some .done else none

def JobKind.code : JobKind → Byte
  | .unlash => 1
  | .lash => 2

def Signal.code : Signal → Byte
  | .closed => 0
  | .enter => 1
  | .stay => 2
  | .leave => 3

def LaneUse.code : LaneUse → Byte
  | .unused => 0
  | .home k => byte (0x10 + k.val)
  | .shared k => byte (0x20 + k.val)

/-- The lane use that a code names; SHARED(7, 8) is none (R82). -/
def LaneUse.ofCode (c : Byte) : Option LaneUse :=
  if c = 0 then some .unused
  else if h : 0x10 ≤ c.toNat ∧ c.toNat < 0x18 then some (.home ⟨c.toNat - 0x10, by omega⟩)
  else if h : 0x20 ≤ c.toNat ∧ c.toNat < 0x27 then some (.shared ⟨c.toNat - 0x20, by omega⟩)
  else none

def Deck.code : Deck → Byte
  | .lashed => 0
  | .unlashWait => 1
  | .unlashing => 2
  | .opened => 3
  | .lashWait => 4
  | .lashing => 5

def MoveState.code : MoveState → Byte
  | .pending => 0
  | .ready => 1
  | .staged => 2
  | .active => 3

def Slot.code : Slot → Byte
  | .free _ => 0
  | .reserved _ => 1
  | .called _ => 2
  | .arrived _ => 3
  | .worked => 4

def GangState.code : GangState → Byte
  | .off => 0
  | .idle => 1
  | .sent _ => 2
  | .working _ => 3

def GangMark.code : GangMark → Byte
  | .clear => 0
  | .job => 1
  | .cancel => 2

def JobMark.code : JobMark → Byte
  | .clear => 0
  | .full => 1
  | .empty => 2

def Mode.code : Mode → Byte
  | .absent => 0
  | .inService => 1
  | .withdrawn => 2

def StationState.code : StationState → Byte
  | .unknown => 0
  | .active => 1
  | .silent => 2

def BerthState.code : BerthState → Byte
  | .running => 0
  | .holding => 1
  | .held => 2

def Causes.code (c : Causes) : Byte := byte (bitsToNat [c.contact, c.wind, c.command])

def BerthCause.code : BerthCause → Byte
  | .contact => 1
  | .wind => 2
  | .command => 4

def ReleaseCause.code : ReleaseCause → Byte
  | .voided => 1
  | .withdrawn => 2
  | .berthHold => 3

def MoveCause.code : MoveCause → Byte
  | .voidedCancel => 1
  | .voidedSkip => 2
  | .abandoned => 3

def AreaCause.code : AreaCause → Byte
  | .unlashQueued => 1
  | .unlashWithdrawn => 2
  | .lashQueued => 3
  | .lashWithdrawn => 4
  | .dispatched => 5
  | .done => 6
  | .returned => 7
  | .loaded => 8

def LineFault.code : LineFault → Byte
  | .framing => 1
  | .parity => 2
  | .length => 3
  | .incomplete => 4
  | .check => 5
  | .overflow => 6

/-! ### Characters and the check (TABLE 50, R154, R155) -/

/-- The parity bit that goes with a data byte and a mark bit: even parity makes the number of ones in the three
even, odd parity makes it odd; no parity sends none (R154). -/
def parityBit (p : Parity) (data : Byte) (mark : Bool) : Option Bool :=
  let odd := ((List.range 8).foldl (fun x i => x != data.getLsbD i) mark)
  match p with
  | .none => none
  | .even => some odd
  | .odd => some (!odd)

/-- A character on the line, bit by bit, spacing as false and marking as true: start bit, data least significant bit
first, mark bit, parity bit where in use, stop bits (TABLE 50). -/
def characterFrame (ls : LineSettings) (data : Byte) (mark : Bool) : List Bool :=
  [false] ++ (List.range 8).map data.getLsbD ++ [mark] ++ (parityBit ls.parity data mark).toList ++
    List.replicate ls.stop true

/-- The bit rate of a line is 7,372,800 divided by this (R154). -/
def LineSettings.rateDivisor (ls : LineSettings) : Nat := 16 * (ls.divider + 1)

/-- A received character has a framing error when its first stop bit is spacing (R154). -/
def framingError (c : RxChar) : Bool := !c.stop

/-- A received character has a parity error when parity is in use and the parity bit disagrees (R154). -/
def parityError (ls : LineSettings) (c : RxChar) : Bool :=
  match parityBit ls.parity c.data c.mark with
  | none => false
  | some b => c.parity != b

/-- An error-free character whose mark bit is 1 (R157). -/
def isMark (ls : LineSettings) (c : RxChar) : Bool := c.mark && !framingError c && !parityError ls c

/-- The check register after one bit (R155 step 2). -/
def crcBit (r : BitVec 16) (b : Bool) : BitVec 16 :=
  if r.msb != b then (r <<< 1) ^^^ 0x1021 else r <<< 1

/-- The check register after one character, fed most significant bit first (R155 step 2). -/
def crcByte (r : BitVec 16) (c : Byte) : BitVec 16 := (List.range 8).foldl (fun r i => crcBit r (c.getMsbD i)) r

/-- The check over a run of characters (R155). -/
def crc (cs : List Byte) : BitVec 16 := cs.foldl crcByte 0xFFFF

/-- The check of a telegram: over kind, sequence, length and body; the mark character is not included (R155). -/
def checkOf (kind sequence : Byte) (body : List Byte) : BitVec 16 :=
  crc (kind :: sequence :: byte body.length :: body)

/-- The characters of a telegram with their mark bits (TABLE 51). -/
def Telegram.characters (t : Telegram) : List (Byte × Bool) :=
  (t.mark, true) ::
    ([t.kind, t.sequence, byte t.body.length] ++ t.body ++ be16 (checkOf t.kind t.sequence t.body).toNat).map (·, false)

/-- A telegram as it stands on a line, bit by bit. -/
def Telegram.frames (ls : LineSettings) (t : Telegram) : List Bool :=
  t.characters.flatMap fun (d, m) => characterFrame ls d m

/-! ### Station marks (TABLE 4) -/

/-- The mark of a station. -/
def Station.mark : Station → Byte
  | .crane k => byte (0x40 + k.val)
  | .gang g => byte (0x50 + g.val)
  | .gate u => byte (0x60 + u.val)

/-- The station that a mark names, if any (TABLE 4). -/
def stationOfMark (m : Byte) : Option Station :=
  if h : 0x40 ≤ m.toNat ∧ m.toNat < 0x48 then some (.crane ⟨m.toNat - 0x40, by omega⟩)
  else if h : 0x50 ≤ m.toNat ∧ m.toNat < 0x56 then some (.gang ⟨m.toNat - 0x50, by omega⟩)
  else if h : 0x60 ≤ m.toNat ∧ m.toNat < 0x68 then some (.gate ⟨m.toNat - 0x60, by omega⟩)
  else none

/-- The number of a station's record: cranes 0 to 7, gangs 8 to 13, gates 14 to 21 (R173). -/
def Station.index : Station → Fin 22
  | .crane k => ⟨k.val, by omega⟩
  | .gang g => ⟨8 + g.val, by omega⟩
  | .gate u => ⟨14 + u.val, by omega⟩

/-! ### Legs (TABLE 53) -/

/-- A box read from its thirteen bytes: identifier, then size code in bits 15 and 14, bits 13 to 10 zero, mass in
bits 9 to 0. -/
def readBox (bs : List Byte) : Option (Box × List Byte) :=
  match bs.drop 11 with
  | hi :: lo :: rest =>
    let w := of16 hi lo
    if (w / 1024) % 16 ≠ 0 then none
    else (BoxSize.ofCode (w / 16384)).map fun sz => (⟨bs.take 11, sz, w % 1024⟩, rest)
  | _ => none

def Box.bytes (b : Box) : List Byte := b.identifier ++ be16 (b.size.code * 16384 + b.mass)

/-- A leg read from the front of a body. The to-zone and the to-bay are of a RESTOW move alone, and their bits must
be zero for any other (TABLE 53). -/
def readLeg (restow : Bool) (bs : List Byte) : Option (Leg × List Byte) :=
  match bs with
  | bay :: flags :: rest =>
    if flags.toNat / 16 ≠ 0 ∨ (!restow && (flags.getLsbD 1 || flags.getLsbD 3)) then none
    else
      let zone := fun b : Bool => if b then Zone.deck else Zone.hold
      let target : Option (Option Nat × List Byte) :=
        if flags.getLsbD 3 then
          match rest with
          | b :: rest => some (some b.toNat, rest)
          | [] => none
        else some (none, rest)
      target.bind fun (toBay, rest) =>
      (readBox rest).bind fun (b1, rest) =>
      let leg := fun b2 : Option Box =>
        (⟨bay.toNat, zone (flags.getLsbD 0), if restow then some ⟨zone (flags.getLsbD 1), toBay⟩ else none, b1, b2⟩ : Leg)
      if flags.getLsbD 2 then (readBox rest).map fun (b2, rest) => (leg (some b2), rest)
      else some (leg none, rest)
  | _ => none

/-- Legs read to the end of a body; the first argument bounds their number. -/
def readLegs (restow : Bool) : Nat → List Byte → Option (List Leg)
  | _, [] => some []
  | 0, _ :: _ => none
  | n + 1, bs => (readLeg restow bs).bind fun (l, rest) => (readLegs restow n rest).map (l :: ·)

/-- A leg as TABLE 53 encodes it. -/
def Leg.bytes (l : Leg) : List Byte :=
  let toBay := l.restow.bind (·.toBay)
  let bits := [decide (l.zone = .deck), decide (l.restow.map (·.toZone) = some .deck), l.box2.isSome, toBay.isSome]
  [byte l.bay, byte (bitsToNat bits)] ++ (toBay.map byte).toList ++ l.box1.bytes ++ (l.box2.map Box.bytes).getD []

/-! ### Orders and directives (TABLE 54) -/

/-- An ORDER_ADD body. -/
structure AddOrder where
  number : MoveNo
  kind : MoveKind
  afterMove : Option MoveNo
  beforeMove : Option MoveNo
  legs : List Leg
  deriving DecidableEq, Repr

def readAdd : List Byte → Option AddOrder
  | n1 :: n0 :: kc :: a1 :: a0 :: b1 :: b0 :: rest =>
    (MoveKind.ofCode kc).bind fun kind =>
    (readLegs (decide (kind = .restow)) rest.length rest).map fun legs =>
      ⟨moveOf n1 n0, kind, moveOpt (moveOf a1 a0), moveOpt (moveOf b1 b0), legs⟩
  | _ => none

/-- An ORDER_AMEND body. -/
structure AmendOrder where
  number : MoveNo
  kind : MoveKind
  legs : List Leg
  deriving DecidableEq, Repr

def readAmend : List Byte → Option AmendOrder
  | n1 :: n0 :: kc :: rest =>
    (MoveKind.ofCode kc).bind fun kind =>
    (readLegs (decide (kind = .restow)) rest.length rest).map fun legs => ⟨moveOf n1 n0, kind, legs⟩
  | _ => none

def readCancel : List Byte → Option MoveNo
  | [n1, n0] => some (moveOf n1 n0)
  | _ => none

/-- A DIRECTIVE body. -/
structure DirectiveOrder where
  number : Byte
  kind : DirectiveKind
  move : Option MoveNo
  deriving DecidableEq, Repr

/-- The kinds that carry a move number (TABLE 42). -/
def DirectiveKind.namesMove : DirectiveKind → Bool
  | .skip | .promote => true
  | .hold | .resume | .withdraw | .returnCrane => false

/-- A DIRECTIVE body, refused where the move number is missing, 0, or not of the kind (R120 test 2). -/
def readDirective : List Byte → Option DirectiveOrder
  | [n, kc] =>
    (DirectiveKind.ofCode kc).bind fun kind => if kind.namesMove then none else some ⟨n, kind, none⟩
  | [n, kc, m1, m0] =>
    (DirectiveKind.ofCode kc).bind fun kind =>
      if kind.namesMove && decide (moveOf m1 m0 ≠ 0) then some ⟨n, kind, some (moveOf m1 m0)⟩ else none
  | _ => none

/-! ### Field replies (TABLE 55) -/

/-- An event of a crane status reply. -/
structure CraneEventItem where
  serial : Byte
  event : CraneEvent
  move : MoveNo
  box1 : Bool
  box2 : Bool
  deriving DecidableEq, Repr

/-- A crane status reply (TABLE 22). -/
structure CraneStatus where
  faulted : Bool
  position : Nat
  wind : Nat
  view : View
  jobWanted : Bool
  events : List CraneEventItem
  deriving DecidableEq, Repr

/-- The box mask of an event: box 1, box 2 or both (TABLE 56). -/
def readMask (c : Byte) : Option (Bool × Bool) :=
  if c = 1 then some (true, false) else if c = 2 then some (false, true) else if c = 3 then some (true, true) else none

def readCraneEvents : List Byte → Option (List CraneEventItem)
  | [] => some []
  | s :: e :: m1 :: m0 :: mask :: rest =>
    (CraneEvent.ofCode e).bind fun event =>
    (readMask mask).bind fun (b1, b2) =>
    (readCraneEvents rest).map (⟨s, event, moveOf m1 m0, b1, b2⟩ :: ·)
  | _ => none

/-- A CRANE_STATUS body; `none` where it is malformed (R64). The wind saturates at 600. -/
def readCraneStatus : List Byte → Option CraneStatus
  | phase :: p1 :: p0 :: w1 :: w0 :: a1 :: a0 :: g1 :: g0 :: want :: count :: rest =>
    if phase.toNat ≤ 3 ∧ count.toNat ≤ 4 ∧ rest.length = 5 * count.toNat then
      (readCraneEvents rest).map fun events =>
        ⟨decide (phase = 3), of16 p1 p0, min (of16 w1 w0) 600, ⟨moveOpt (moveOf a1 a0), moveOpt (moveOf g1 g0)⟩,
          decide (want ≠ 0), events⟩
    else none
  | _ => none

/-- An event of a gang status reply. -/
structure GangEventItem where
  serial : Byte
  event : GangEvent
  area : AreaNo
  deriving DecidableEq, Repr

/-- A gang status reply (R109). -/
structure GangStatus where
  signedOn : Bool
  events : List GangEventItem
  deriving DecidableEq, Repr

def readGangEvents : List Byte → Option (List GangEventItem)
  | [] => some []
  | s :: e :: a :: rest =>
    (GangEvent.ofCode e).bind fun event =>
    if h : a.toNat < 32 then (readGangEvents rest).map (⟨s, event, ⟨a.toNat, h⟩⟩ :: ·) else none
  | _ => none

/-- A GANG_STATUS body; `none` where it is malformed (R109). -/
def readGangStatus : List Byte → Option GangStatus
  | on :: count :: rest =>
    if count.toNat ≤ 4 ∧ rest.length = 3 * count.toNat then
      (readGangEvents rest).map fun events => ⟨decide (on ≠ 0), events⟩
    else none
  | _ => none

/-- A GATE_STATUS body: exactly two raw levels, each 0 or 1 (R91). -/
def readGateStatus : List Byte → Option (Bool × Bool)
  | [a, b] => if a.toNat ≤ 1 ∧ b.toNat ≤ 1 then some (decide (a = 1), decide (b = 1)) else none
  | _ => none

/-! ### LOAD rows (TABLE 54) -/

/-- A LOAD body cut into rows of `n + 1` bytes: `none` where it is not a whole number of rows or holds none (R171). -/
def rowsOf (n : Nat) (bs : List Byte) : Option (List (List Byte)) :=
  if bs ≠ [] ∧ bs.length % (n + 1) = 0 then
    some ((List.range (bs.length / (n + 1))).map fun i => (bs.drop (i * (n + 1))).take (n + 1))
  else none

/-- Byte `i` of a row, as a number. -/
def cell (row : List Byte) (i : Nat) : Nat := (row.getD i 0).toNat

/-! ### Reports (TABLE 63, R163, R170) -/

/-- The class of a report (TABLE 60). -/
def Items.cls : Items → Fin 14
  | .truckCall .. => 0
  | .truckCancel .. => 1
  | .berth _ => 2
  | .moveDone .. => 3
  | .moveState .. => 4
  | .directive .. => 5
  | .gang .. => 6
  | .area .. => 7
  | .lane _ => 8
  | .stationSilent .. | .stationReturned .. => 9
  | .crane .. => 10
  | .line _ => 11
  | .passUp .. => 12
  | .restartBreak | .restartCoord => 13

/-- The job of a gang, where it has one. -/
def GangState.job : GangState → Option Job
  | .off | .idle => none
  | .sent j | .working j => some j

def jobOptBytes : Option Job → List Byte
  | some j => [byte j.area.val, j.kind.code]
  | none => [0xFF, 0]

def BerthReport.bytes : BerthReport → List Byte
  | .entered n a set => [1, n.code, a.code, set.code, 0xFF]
  | .causeAdded n a set => [2, n.code, a.code, set.code, 0xFF]
  | .toHeld set => [3, BerthState.held.code, 0, set.code, 0xFF]
  | .toHolding set k => [4, BerthState.holding.code, 0, set.code, indexOptByte (k.map (·.val))]
  | .released former set => [5, former.code, 0, set.code, 0xFF]

def GangReport.bytes : GangReport → List Byte
  | .signedOn => [1]
  | .signedOff j => 2 :: jobOptBytes j
  | .dispatched j => [3, byte j.area.val, j.kind.code]
  | .onArea a => [4, byte a.val]
  | .done j seen => [5, byte j.area.val, j.kind.code, flagByte seen]
  | .cleared j => 6 :: jobOptBytes j
  | .eventFault s e a st => [7, s, e.code, byte a.val, st.code, indexOptByte (st.job.map (·.area.val))]
  | .serialGap e r => [8, e, r]
  | .badReply => [9]

def LaneReport.bytes : LaneReport → List Byte
  | .stray l => [byte l.val, 1, 0, 0]
  | .leftEarly l m => [byte l.val, 2] ++ moveBytes m
  | .presenceNotSeen l m => [byte l.val, 3] ++ moveBytes m
  | .badReply u => [byte u.val, 4, 0, 0]

def CraneReport.bytes : CraneReport → List Byte
  | .badReply => [1]
  | .fault => [2]
  | .faultCleared => [3]
  | .serialGap e r => [4, e, r]
  | .eventFault s e m a n =>
    [5, s, e.code] ++ moveBytes m ++ moveOptBytes a ++ [(n.map CraneEvent.code).getD 0]
  | .boxLeft m e i => [6] ++ moveBytes m ++ [e.code] ++ i
  | .unknownMove m => [7] ++ moveBytes m

def FieldFault.bytes : FieldFault → List Byte
  | .framing => [1, 0]
  | .parity => [2, 0]
  | .length => [3, 0]
  | .incomplete => [4, 0]
  | .check => [5, 0]
  | .wrongMark m => [6, m]
  | .wrongKind k => [7, k]

def LineReport.bytes : LineReport → List Byte
  | .uplink f m => [f.code, m.getD 0]
  | .unusedMark m k => [7, m, k]
  | .forwardFull m => [8, m]
  | .forwardDiscarded m => [9, m]
  | .fieldBad m f => [10, m] ++ f.bytes

/-- The items of a report after its class and quay clock (TABLE 63). PASS_UP is written by `Report.body`. -/
def Items.bytes : Items → List Byte
  | .truckCall l m a ids => [byte l.val] ++ moveBytes m ++ be16 a ++ ids.flatten
  | .truckCancel l m away c => [byte l.val] ++ moveBytes m ++ [flagByte away, c.code]
  | .berth r => r.bytes
  | .moveDone m k => moveBytes m ++ [byte k.val]
  | .moveState m k c => moveBytes m ++ [byte k.val, c.code]
  | .directive k n kind m .normal => [byte k.val, n, kind.code] ++ moveOptBytes m ++ [0, 0, 0]
  | .directive k n kind m (.silence a) => [byte k.val, n, kind.code] ++ moveOptBytes m ++ [1] ++ moveOptBytes a
  | .gang g r => byte g.val :: r.bytes
  | .area a f n c => [byte a.val, f.code, n.code, c.code]
  | .lane r => r.bytes
  | .stationSilent st f => [st.mark, 1, f.code]
  | .stationReturned st f => [st.mark, 2, f.code]
  | .crane k r => byte k.val :: r.bytes
  | .line r => r.bytes
  | .passUp .. => []
  | .restartBreak => [1]
  | .restartCoord => [2]

/-- The body of a REPORT (R170): class, quay clock at queueing and items; or, for PASS_UP, the received kind, mark,
sequence and length, and at most 116 bytes of the received body (R163). -/
def Report.body (r : Report) : List Byte :=
  match r.items with
  | .passUp mark kind sequence body => [kind, mark, sequence, byte body.length] ++ body.take 116
  | i => byte i.cls.val :: (clockBytes r.time ++ i.bytes)

/-- The body of a RESPONSE (R161). -/
def Response.body (r : Response) : List Byte := r.kind :: r.result.code :: r.data

end Sys2Proof.Machine
end

