-- ==== Sys2Proof/Machine/Ops.lean ====
section
/-! DEFINITION. The named operations over the part's tables: reading a parameter or a table, and writing one row of one
table. Every rule's meaning is written over these, so that what an operation leaves alone is said once
(Laws/State.lean). -/

namespace Sys2Proof.Machine

/-- The standing value of a parameter. -/
def par (s : State) (i : Config.Param) : Nat := s.params[i]

/-- The state of a station (R141). -/
def stationState (s : State) (st : Station) : StationState := s.stations[st.index].state

/-- All cranes, in quay order. -/
def cranes : List CraneNo := List.finRange 8

/-- All lanes, in ascending number. -/
def lanes : List LaneNo := List.finRange 16

/-- All gangs, in ascending number. -/
def gangs : List GangNo := List.finRange 6

/-! ### Writing one row -/

def modCrane (k : CraneNo) (f : Crane → Crane) (s : State) : State :=
  { s with cranes := s.cranes.set k (f s.cranes[k]) }

def setQueue (k : CraneNo) (q : List MoveRecord) (s : State) : State :=
  { s with queues := s.queues.set k q }

/-- Every record of the pool rewritten by `f`. -/
def mapMoves (f : MoveRecord → MoveRecord) (s : State) : State :=
  { s with queues := Vector.ofFn fun k => (s.queues[k]).map f }

/-- The records of number `n` rewritten by `f` (a number names at most one record, R1). -/
def modMove (n : MoveNo) (f : MoveRecord → MoveRecord) (s : State) : State :=
  mapMoves (fun r => if r.number = n then f r else r) s

def setCycle (k : CraneNo) (c : Cycle) (s : State) : State := { s with cycles := s.cycles.set k c }

def setRoster (k : CraneNo) (e : Option RosterEntry) (s : State) : State := { s with roster := s.roster.set k e }

def modLane (l : LaneNo) (f : Lane → Lane) (s : State) : State :=
  { s with lanes := s.lanes.set l (f s.lanes[l]) }

/-- Every lane rewritten by `f`. -/
def mapLanes (f : Lane → Lane) (s : State) : State := { s with lanes := Vector.ofFn fun l => f s.lanes[l] }

def setGateMark (u : GateNo) (b : Bool) (s : State) : State := { s with gateMarks := s.gateMarks.set u b }

def setBay (i : Fin 64) (r : Option BayRow) (s : State) : State := { s with bays := s.bays.set i r }

def modArea (a : AreaNo) (f : Area → Area) (s : State) : State :=
  { s with areas := s.areas.set a (f s.areas[a]) }

def setJobs (js : List Job) (s : State) : State := { s with jobs := js }

def modGang (g : GangNo) (f : Gang → Gang) (s : State) : State :=
  { s with gangs := s.gangs.set g (f s.gangs[g]) }

def modBerth (f : Berth → Berth) (s : State) : State := { s with berth := f s.berth }

def modStation (st : Station) (f : StationRecord → StationRecord) (s : State) : State :=
  { s with stations := s.stations.set st.index (f s.stations[st.index]) }

def modField (f : Field → Field) (s : State) : State := { s with field := f s.field }

def modReports (f : Reports → Reports) (s : State) : State := { s with reports := f s.reports }

def modUplink (f : Uplink → Uplink) (s : State) : State := { s with uplink := f s.uplink }

def setParam (i : Config.Param) (v : Nat) (s : State) : State := { s with params := s.params.set i v }

/-- One more use of the order that the manual leaves open. -/
def useFree (s : State) : State := { s with freeCount := s.freeCount + 1 }

/-- The quay clock counts one ds: 32 bits wide, after 4,294,967,295 it returns to 0 (R45). -/
def tickClock (s : State) : State := { s with clock := s.clock + 1 }

/-! ### Reading the move pool (R1) -/

/-- Every record of the pool. -/
def pool (s : State) : List MoveRecord := cranes.flatMap fun k => s.queues[k]

/-- The record of number `n` in crane `k`'s queue. -/
def findIn (s : State) (k : CraneNo) (n : MoveNo) : Option MoveRecord :=
  (s.queues[k]).find? fun r => decide (r.number = n)

/-- The record of number `n` with the crane whose queue holds it. -/
def findMove (s : State) (n : MoveNo) : Option (CraneNo × MoveRecord) :=
  cranes.findSome? fun k => (findIn s k n).map fun r => (k, r)

def inPool (s : State) (n : MoveNo) : Bool := (findMove s n).isSome

/-- A record that stands with its crane: STAGED or ACTIVE. -/
def MoveRecord.busy (r : MoveRecord) : Bool := decide (r.state = .staged ∨ r.state = .active)

/-- Some crane has a STAGED or ACTIVE move. -/
def anyBusy (s : State) : Bool := (pool s).any (·.busy)

/-- The crane is in the roster: its mode is not ABSENT. -/
def inRoster (s : State) (k : CraneNo) : Bool := decide (s.cranes[k].mode ≠ .absent)

end Sys2Proof.Machine
end

