-- ==== Sys2Proof/Machine/Flags.lean ====
section
/-! DEFINITION. The flags of the part: the report queue with its seen and lost flags (R166 to R169), the attention
output, the error latches with the LINE reports that set them (R157, R158), and the ready output (R159). -/

namespace Sys2Proof.Machine

/-! ### The report queue -/

/-- The level of a report class: CLASS_LEVEL for classes 0 to 12, and 3 for RESTART (R166). -/
def classLevel (s : State) (c : Fin 14) : Nat :=
  if h : c.val < 13 then par s (Config.CLASS_LEVEL ⟨c.val, h⟩) else 3

/-- The level that a newcomer of level `v` displaces: the lowest level below `v` of a queued report that the
transmitter does not have in hand (R167). -/
def victimLevel (v : Nat) (q : List Report) : Option Nat :=
  ((q.filter fun r => !r.inHand && decide (r.level < v)).map (·.level)).min?

/-- The queue without the report that joined last among those of level `v` not in hand (R167), and that report. -/
def removeLast (v : Nat) : List Report → Option (Report × List Report)
  | [] => none
  | r :: rs =>
    match removeLast v rs with
    | some (x, rs') => some (x, r :: rs')
    | none => if !r.inHand && decide (r.level = v) then some (r, rs) else none

/-- A report joins the queue: it takes its class's level and the next report serial, and sets the seen flag of its
class (R166). -/
def joinReport (i : Items) (s : State) : State :=
  modReports (fun q =>
    { q with
      queue := q.queue ++ [⟨i, classLevel s i.cls, q.nextSerial, s.clock, false⟩]
      nextSerial := q.nextSerial + 1
      seen := q.seen.set i.cls true }) s

/-- The lost flag of a class is set (R167). -/
def markLost (c : Fin 14) (s : State) : State := modReports (fun q => { q with lost := q.lost.set c true }) s

/-- A report is offered to the report queue: it joins, or displaces a report of lower level, or is dropped
(R166, R167). -/
def report (i : Items) (s : State) : State :=
  if s.reports.queue.length < Config.reportCapacity then joinReport i s
  else
    match (victimLevel (classLevel s i.cls) s.reports.queue).bind fun v => removeLast v s.reports.queue with
    | some (x, rest) => joinReport i (markLost x.items.cls (modReports (fun q => { q with queue := rest }) s))
    | none => markLost i.cls s

/-- The report that the queue gives next: the first to have joined among those of the highest level (R168). -/
def nextReport (q : List Report) : Option Report :=
  match (q.map (·.level)).max? with
  | none => none
  | some v => q.find? fun r => decide (r.level = v)

/-- The queue with the report that `nextReport` gives marked as in the transmitter's hand. -/
def takeInHand : List Report → Nat → List Report
  | [], _ => []
  | r :: rs, v => if r.level = v then { r with inHand := true } :: rs else r :: takeInHand rs v

/-- The attention output: some class whose level is at least ATTENTION_LEVEL has its seen or its lost flag set
(R169). -/
def attention (s : State) : Bool :=
  (List.finRange 14).any fun c =>
    decide (par s Config.ATTENTION_LEVEL ≤ classLevel s c) && (s.reports.seen[c] || s.reports.lost[c])

/-! ### Error latches and LINE reports -/

/-- The number of a latch: bits 0 to 5 of the STATUS item (TABLE 61). -/
def LineFault.index : LineFault → Fin 6
  | .framing => 0
  | .parity => 1
  | .length => 2
  | .incomplete => 3
  | .check => 4
  | .overflow => 5

/-- A telegram is discarded on the uplink: its latch is set and a LINE report is queued (R157, R158).
DEDUCED: notes/assumptions/18.md. -/
def lineFault (f : LineFault) (mark : Option Byte) (s : State) : State :=
  report (.line (.uplink f mark)) (modUplink (fun u => { u with latches := u.latches.set f.index true }) s)

/-! ### The ready output -/

/-- The ready output after a telegram has joined the inbound queue (R159). -/
def readyAfterJoin (fill : Nat) (ready : Bool) : Bool := if 6 ≤ fill then false else ready

/-- The ready output after a telegram has left the inbound queue, or the queue has been emptied (R159). -/
def readyAfterLeave (fill : Nat) (ready : Bool) : Bool := if fill ≤ 2 then true else ready

end Sys2Proof.Machine
end

