-- ==== Sys2Proof/Machine/Eligibility.lean ====
section
/-! DEFINITION. The move table's own rules: points and areas of a move (R3, R101), eligibility (R12 to R14), places in
a queue (R2), the expected event sequence of a kind (TABLE 24), and the taking back of a staged move (R17). -/

namespace Sys2Proof.Machine

/-! ### Points and areas -/

/-- The points of a leg: its bay and zone, and for a RESTOW the place it sets into (R3). -/
def Leg.points (l : Leg) : List (Nat × Zone) :=
  (l.bay, l.zone) ::
    match l.restow with
    | none => []
    | some d => [(d.toBay.getD l.bay, d.toZone)]

def MoveRecord.points (r : MoveRecord) : List (Nat × Zone) := r.legs.flatMap Leg.points

/-- The row of the bay map that carries a bay number (R101). -/
def bayRow (s : State) (b : Nat) : Option BayRow :=
  s.bays.toList.findSome? fun r => r.filter fun x => decide (x.bay = b)

/-- The lashing area of a bay, as the bay map stands (R101). -/
def areaOf (s : State) (b : Nat) : Option AreaNo := (bayRow s b).map (·.area)

/-- The areas of a move's deck points. -/
def deckAreas (s : State) (r : MoveRecord) : List AreaNo :=
  (r.points.filter fun p => decide (p.2 = .deck)).filterMap fun p => areaOf s p.1

/-- The areas of all of a move's points. -/
def pointAreas (s : State) (r : MoveRecord) : List AreaNo := r.points.filterMap fun p => areaOf s p.1

/-! ### Eligibility -/

/-- Every deck point has a bay whose lashing area has deck state OPEN (R12 condition 2). -/
def lashingMet (s : State) (r : MoveRecord) : Bool :=
  r.points.all fun p =>
    decide (p.2 ≠ .deck) ||
      match areaOf s p.1 with
      | some a => decide (s.areas[a].deck = .opened)
      | none => false

/-- No gang is present on the area of any point (R12 condition 3). -/
def gangMet (s : State) (r : MoveRecord) : Bool := (pointAreas s r).all fun a => s.areas[a].gang.isNone

/-- The first condition of eligibility that fails (R12). -/
def failingCause (s : State) (r : MoveRecord) : Option BlockReason :=
  if r.afterMove.isSome then some .precedence
  else if !lashingMet s r then some .lashing
  else if !gangMet s r then some .gang
  else none

/-- A record is eligible when precedence, lashing and gang conditions all hold (R12). -/
def eligible (s : State) (r : MoveRecord) : Bool := (failingCause s r).isNone

/-- The pending cause of a PENDING record (R12). -/
def pendingCause (s : State) (r : MoveRecord) : Option BlockReason :=
  if r.state = .pending then failingCause s r else none

/-- A record evaluated: READY if it is eligible and PENDING if not; one that becomes READY takes the quay clock as its
ready time, and one that stays READY keeps it (R13). DEDUCED: notes/assumptions/13.md. -/
def evaluateRecord (s : State) (r : MoveRecord) : MoveRecord :=
  if eligible s r then
    { r with state := .ready, readyTime := if r.state = .ready then r.readyTime else some s.clock }
  else { r with state := .pending }

/-- The PENDING and READY records that an event concerns, evaluated anew (R14). -/
def reevaluate (concerned : MoveRecord → Bool) (s : State) : State :=
  mapMoves (fun r => if !r.busy && concerned r then evaluateRecord s r else r) s

/-- The cranes with a move that is READY in `t` and was not READY in `s`: those of which the release unit is told
(R14, R28). -/
def newlyReady (s t : State) : List CraneNo :=
  cranes.filter fun k =>
    (t.queues[k]).any fun r =>
      decide (r.state = .ready) &&
        !(s.queues[k]).any fun r0 => decide (r0.number = r.number) && decide (r0.state = .ready)

/-! ### Places in a queue (R2) -/

/-- A record set directly behind the ACTIVE and STAGED moves of a queue, or at its head where there are none. -/
def placeBehindBusy (r : MoveRecord) (q : List MoveRecord) : List MoveRecord :=
  q.takeWhile (·.busy) ++ r :: q.dropWhile (·.busy)

/-- A record set directly behind the ACTIVE move of a queue. -/
def placeBehindActive (r : MoveRecord) (q : List MoveRecord) : List MoveRecord :=
  q.takeWhile (fun x => decide (x.state = .active)) ++ r :: q.dropWhile (fun x => decide (x.state = .active))

/-- A record set directly before the record of number `n`. -/
def placeBefore (r : MoveRecord) (n : MoveNo) (q : List MoveRecord) : List MoveRecord :=
  q.takeWhile (fun x => decide (x.number ≠ n)) ++ r :: q.dropWhile (fun x => decide (x.number ≠ n))

/-- A queue without the record of number `n`: the records behind it close up. -/
def without (n : MoveNo) (q : List MoveRecord) : List MoveRecord := q.filter fun x => decide (x.number ≠ n)

/-! ### The expected sequence of a kind (TABLE 24) -/

/-- The first event of a kind. -/
def MoveKind.first : MoveKind → CraneEvent
  | .discharge | .restow => .pickV
  | .load | .dual => .pickL

/-- The event that follows `e` in the sequence of a kind; `none` after the final event. -/
def MoveKind.after : MoveKind → CraneEvent → Option CraneEvent
  | .discharge, .pickV => some .setL
  | .load, .pickL => some .setV
  | .dual, .pickL => some .setV
  | .dual, .setV => some .pickV
  | .dual, .pickV => some .setL
  | .restow, .pickV => some .setV
  | _, _ => none

/-- A lane kind is served by a truck in a lane (R3, TABLE 8). -/
def MoveKind.laneKind : MoveKind → Bool
  | .discharge | .load | .dual => true
  | .restow => false

/-- Lane events are a lift from or a set onto a truck in the lane. -/
def CraneEvent.laneEvent : CraneEvent → Bool
  | .pickL | .setL => true
  | .pickV | .setV => false

def CraneEvent.pick : CraneEvent → Bool
  | .pickV | .pickL => true
  | .setV | .setL => false

/-- The last lane event of a kind (TABLE 24). -/
def MoveKind.lastLane : MoveKind → Option CraneEvent
  | .discharge | .dual => some .setL
  | .load => some .pickL
  | .restow => none

/-- The leg that an event of a move belongs to: the second leg of a DUAL move begins at PICK_V (R72). -/
def MoveRecord.legOf (r : MoveRecord) (e : CraneEvent) : Option Leg :=
  match r.kind, e with
  | .dual, .pickV | .dual, .setL => r.legs[1]?
  | _, _ => r.legs[0]?

/-- The leg progress of a move at its activation (R72): the first event of its kind, and an empty lift set. -/
def MoveKind.progress (k : MoveKind) : Progress := ⟨k.first, false, false⟩

/-! ### Slots of a crane and the taking back of a staged move -/

/-- An activated move has its hold-overlap flag set at once if the berth state is not RUNNING or its crane's held flag
is set (R15, R16, R47). -/
def overlapAtActivation (s : State) (k : CraneNo) : Bool :=
  decide (s.berth.state ≠ .running) || s.cranes[k].held

/-- A record made ACTIVE on crane `k`, by through release or promotion (R15, R16). -/
def activate (s : State) (k : CraneNo) (r : MoveRecord) : MoveRecord :=
  { r with
    state := .active
    activation := some s.clock
    progress := some r.kind.progress
    holdOverlap := overlapAtActivation s k }

/-- Crane `k`'s STAGED move, if any, is taken back: its staged slot is emptied and its record evaluated; it keeps its
place, its lane slot and its call issued (R17). -/
def takeBack (k : CraneNo) (s : State) : State :=
  match s.cranes[k].staged with
  | none => s
  | some n => modCrane k (fun c => { c with staged := none }) (modMove n (evaluateRecord s) s)

/-- The hold-overlap flag of crane `k`'s ACTIVE move, if any, is set (R47). -/
def markOverlap (k : CraneNo) (s : State) : State :=
  match s.cranes[k].active with
  | none => s
  | some n => modMove n (fun r => { r with holdOverlap := true }) s

end Sys2Proof.Machine
end

