-- ==== Sys2Proof/Machine/Lanes.lean ====
section
/-! DEFINITION. The lane allocator (Chapter 5): slots and signals, the order of selection, reservation, requests on
shared lanes, lane events, release of slots, and the presence filter. -/

namespace Sys2Proof.Machine

/-! ### Slots and signals -/

/-- The move that a slot names (TABLE 28). -/
def Slot.move : Slot → Option MoveNo
  | .free _ | .worked => none
  | .reserved m | .called m | .arrived m => some m

/-- The lane signal of a slot state (R97). -/
def Slot.signal : Slot → Signal
  | .free _ | .reserved _ => .closed
  | .called _ => .enter
  | .arrived _ => .stay
  | .worked => .leave

/-- The signal of a lane; an UNUSED lane shows CLOSED (R97). -/
def Lane.signal (x : Lane) : Signal := if x.use = .unused then .closed else x.slot.signal

/-- The gate that serves a lane: gate u serves lanes 2u and 2u+1. -/
def gateOf (l : LaneNo) : GateNo := ⟨l.val / 2, by omega⟩

/-- The lanes of a gate, the even lane first. -/
def evenLane (u : GateNo) : LaneNo := ⟨2 * u.val, by omega⟩
def oddLane (u : GateNo) : LaneNo := ⟨2 * u.val + 1, by omega⟩

/-- A slot is written, and a change of its signal sets the GATE_LIGHT mark of the lane's gate (R97). -/
def setSlot (l : LaneNo) (x : Slot) (s : State) : State :=
  let t := modLane l (fun y => { y with slot := x }) s
  if (t.lanes[l]).signal = (s.lanes[l]).signal then t else setGateMark (gateOf l) true t

/-- The move's hold on its slot is cleared, and call issued with it (R5). -/
def clearHold (m : MoveNo) (s : State) : State := modMove m (fun r => { r with lane := none, called := false }) s

/-! ### Requests on shared lanes (R87 to R90) -/

/-- Requests that satisfy `p` are withdrawn; owners are left as they were (R90). -/
def withdrawRequests (p : Request → Bool) (s : State) : State :=
  mapLanes (fun x => { x with request := x.request.filter fun q => !p q }) s

/-- Crane `k` may reserve the lane as one of its row's two cranes (R82). -/
def LaneUse.sharedBy (u : LaneUse) (k : CraneNo) : Bool :=
  match u with
  | .shared j => decide (k.val = j.val ∨ k.val = j.val + 1)
  | .unused | .home _ => false

/-- Crane `k` has a request standing on some lane (R88). -/
def hasRequest (s : State) (k : CraneNo) : Bool :=
  lanes.any fun l => s.lanes[l].request.any fun q => decide (q.crane = k)

/-- A request from crane `k` naming move `m`, on the lowest-numbered shared lane of `k` that the other crane owns,
where `k` has none standing (R88). -/
def raiseRequest (k : CraneNo) (m : MoveNo) (s : State) : State :=
  if hasRequest s k then s
  else
    match lanes.find? fun l => s.lanes[l].use.sharedBy k && s.lanes[l].owner.any fun j => decide (j ≠ k) with
    | some l => modLane l (fun x => { x with request := some ⟨k, m⟩ }) s
    | none => s

/-! ### Reservation (R85, R86) -/

/-- Crane `k`'s home lane: of use HOME(k) and listed by the roster (R83). -/
def homeLane (s : State) (k : CraneNo) (l : LaneNo) : Bool :=
  decide (s.lanes[l].use = .home k) && s.roster[k].any fun e => decide (l ∈ e.homeLanes)

/-- A shared lane that crane `k` may reserve now, apart from its slot: owned by `k` or by none, and with no request of
the other crane pending while `k` owns it (R85). -/
def sharedOpen (s : State) (k : CraneNo) (l : LaneNo) : Bool :=
  s.lanes[l].use.sharedBy k &&
    (s.lanes[l].owner.isNone ||
      (decide (s.lanes[l].owner = some k) && !s.lanes[l].request.any fun q => decide (q.crane ≠ k)))

/-- The order of selection of crane `k` (R85): home lanes, then shared lanes, FREE with the stray flag clear. -/
def selection (s : State) (k : CraneNo) : List LaneNo :=
  let free := lanes.filter fun l => decide (s.lanes[l].slot = .free false)
  free.filter (homeLane s k) ++ free.filter (sharedOpen s k)

/-- The lane found for crane `k`, if any. -/
def laneFound (s : State) (k : CraneNo) : Option LaneNo := (selection s k).head?

/-- A slot reserved in lane `l` for move `m` of crane `k` (R86). -/
def reserve (k : CraneNo) (m : MoveNo) (l : LaneNo) (s : State) : State :=
  setSlot l (.reserved m) s
    |> modMove m (fun r => { r with lane := some l, called := false })
    |> modLane l (fun x =>
        { x with owner := if x.use.sharedBy k && x.owner.isNone then some k else x.owner })
    |> withdrawRequests (fun q => decide (q.crane = k ∧ q.move = m))

/-! ### Lane need (R54) -/

/-- A move of a lane kind has a lane need until its last lane event has been taken; a RESTOW never has one. -/
def laneNeed (r : MoveRecord) : Bool :=
  match r.kind with
  | .restow => false
  | .discharge | .dual => true
  | .load => decide (r.state ≠ .active) || r.progress.any fun p => decide (p.next = .pickL)

/-! ### Lane events (R76, R77) -/

/-- A slot found CALLED by a lane event first becomes ARRIVED, with PRESENCE_NOT_SEEN (R77). -/
def forceArrived (l : LaneNo) (m : MoveNo) (s : State) : State :=
  match s.lanes[l].slot with
  | .called _ => report (.lane (.presenceNotSeen l m)) (setSlot l (.arrived m) s)
  | _ => s

/-- A matching lane event of move `m`, which holds lane `l` (R76). -/
def laneEvent (l : LaneNo) (m : MoveNo) (last : Bool) (s : State) : State :=
  let t := forceArrived l m s
  if last then clearHold m (setSlot l .worked t) else t

/-! ### Release of slots (R95, R96) -/

/-- The slot of lane `l` is taken from its move (TABLE 31). -/
def releaseSlot (c : ReleaseCause) (s : State) (l : LaneNo) : State :=
  match s.lanes[l].slot with
  | .free _ => s
  | .worked => s
  | .reserved m => clearHold m (setSlot l (.free false) s)
  | .called m => report (.truckCancel l m false c) (clearHold m (setSlot l (.free false) s))
  | .arrived m => report (.truckCancel l m true c) (clearHold m (setSlot l .worked s))

/-- The slots whose moves satisfy `p` are released, in ascending lane number (R96). -/
def releaseSlots (c : ReleaseCause) (p : CraneNo → MoveRecord → Bool) (s : State) : State :=
  lanes.foldl (fun s l =>
    match s.lanes[l].slot.move.bind (findMove s) with
    | some (k, r) => if p k r then releaseSlot c s l else s
    | none => s) s

/-! ### Presence (R91 to R94) -/

/-- A rise of filtered presence acts on the slot (TABLE 30). -/
def presenceRise (l : LaneNo) (s : State) : State :=
  match s.lanes[l].slot with
  | .free false =>
    let t := setSlot l (.free true) s
    if s.lanes[l].use = .unused then t else report (.lane (.stray l)) t
  | .free true => s
  | .reserved m => setSlot l (.arrived m) s
  | .called m => setSlot l (.arrived m) s
  | .arrived _ => s
  | .worked => s

/-- A fall of filtered presence acts on the slot (TABLE 30). -/
def presenceFall (l : LaneNo) (s : State) : State :=
  match s.lanes[l].slot with
  | .free false => s
  | .free true => setSlot l (.free false) s
  | .reserved _ => s
  | .called _ => s
  | .arrived m => report (.lane (.leftEarly l m)) (setSlot l (.called m) s)
  | .worked => setSlot l (.free false) s

/-- The candidate of a lane after steps 1 and 2 of the filter (R91). -/
def nextCandidate (now : Clock) (x : Lane) (raw : Bool) : Option Clock :=
  if raw = x.present then none else some (x.candidate.getD now)

/-- The candidate settles at this reply: step 3 of the filter (R91). -/
def settles (now : Clock) (x : Lane) (raw : Bool) : Bool :=
  (nextCandidate now x raw).any fun t => decide (x.settle ≤ age now t)

/-- The presence filter of one lane of a gate reply (R91), and the rise or fall that it settles (R93). -/
def filterLane (l : LaneNo) (level : Bool) (s : State) : State :=
  let x := s.lanes[l]
  let raw := level != x.activeLow
  if settles s.clock x raw then
    let t := modLane l (fun y => { y with present := raw, candidate := none }) s
    if raw then presenceRise l t else presenceFall l t
  else modLane l (fun y => { y with candidate := nextCandidate s.clock x raw }) s

/-- One lane of a gate reply: the filter, and then R94. -/
def gateLane (l : LaneNo) (level : Bool) (s : State) : State :=
  let t := filterLane l level s
  if t.lanes[l].slot = .worked ∧ t.lanes[l].present = false ∧ t.lanes[l].candidate = none then
    setSlot l (.free false) t
  else t

/-- A GATE_STATUS reply is taken for lane 2u and then for lane 2u+1; a malformed body is discarded with BAD_REPLY
(R91). -/
def gateStatus (u : GateNo) (body : List Byte) (s : State) : State :=
  match readGateStatus body with
  | none => report (.lane (.badReply u)) s
  | some (a, b) => gateLane (oddLane u) b (gateLane (evenLane u) a s)

/-- A gate's station becomes ACTIVE: the candidates of its lanes are cleared and its GATE_LIGHT mark is set
(R92, R98). -/
def gateReturns (u : GateNo) (s : State) : State :=
  modLane (evenLane u) (fun x => { x with candidate := none }) s
    |> modLane (oddLane u) (fun x => { x with candidate := none })
    |> setGateMark u true

end Sys2Proof.Machine
end

