-- ==== Sys2Proof/Machine/Lashing.lean ====
section
/-! DEFINITION. The lashing table and the gang dispatcher (Chapter 6): deck states, UNLASH and LASH jobs, dispatch
passes, and the return of a job. A job's creation is followed at once by a dispatch pass, as R104 and R106 state, but
inside a gang's reply, whose pass follows the whole reply (R111). -/

namespace Sys2Proof.Machine

/-- Area `a`'s deck state is written, with an AREA report, and the records with a deck point in it are evaluated
(R103, R14). -/
def setDeck (a : AreaNo) (d : Deck) (c : AreaCause) (s : State) : State :=
  let t := report (.area a s.areas[a].deck d c) (modArea a (fun x => { x with deck := d }) s)
  reevaluate (fun r => decide (a ∈ deckAreas t r)) t

/-- Area `a`'s gang present is set or cleared, and the records with any point in it are evaluated (R14). -/
def setGangPresent (a : AreaNo) (g : Option GangNo) (s : State) : State :=
  let t := modArea a (fun x => { x with gang := g }) s
  reevaluate (fun r => decide (a ∈ pointAreas t r)) t

/-! ### Dispatch (R112, R113) -/

/-- The deck state of an area whose job waits in the queue. -/
def JobKind.waiting : JobKind → Deck
  | .unlash => .unlashWait
  | .lash => .lashWait

/-- The deck state of an area to which a gang has been sent. -/
def JobKind.underWay : JobKind → Deck
  | .unlash => .unlashing
  | .lash => .lashing

/-- The deck state in which a job's DONE leaves its area (R110). -/
def JobKind.ended : JobKind → Deck
  | .unlash => .opened
  | .lash => .lashed

/-- The service order: every UNLASH job in queue order, then every LASH job in queue order (R108). -/
def serviceOrder (js : List Job) : List Job :=
  js.filter (fun j => decide (j.kind = .unlash)) ++ js.filter (fun j => decide (j.kind = .lash))

/-- A job is dispatchable when no STAGED or ACTIVE move has a point in its area (R112). -/
def dispatchable (s : State) (j : Job) : Bool :=
  (pool s).all fun r => !r.busy || decide (j.area ∉ pointAreas s r)

/-- A gang is free when it is IDLE and its station state is ACTIVE (R112). -/
def gangFree (s : State) (g : GangNo) : Bool :=
  decide (s.gangs[g].state = .idle ∧ stationState s (.gang g) = .active)

/-- Job `j` is given to gang `g` (R113). -/
def giveJob (g : GangNo) (j : Job) (s : State) : State :=
  setJobs (s.jobs.filter fun x => decide (x.area ≠ j.area)) s
    |> modGang g (fun x => { x with state := .sent j, mark := .job })
    |> setDeck j.area j.kind.underWay .dispatched
    |> setGangPresent j.area (some g)
    |> report (.gang g (.dispatched j))

/-- Gang `g`, if it is free, takes the first dispatchable job in service order. -/
def serveGang (s : State) (g : GangNo) : State :=
  if gangFree s g then
    match (serviceOrder s.jobs).find? (dispatchable s) with
    | some j => giveJob g j s
    | none => s
  else s

/-- A dispatch pass: made only while the berth state is RUNNING, free gangs in ascending number (R112). -/
def dispatchPass (s : State) : State :=
  if s.berth.state = .running then gangs.foldl serveGang s else s

/-! ### Jobs (R104 to R107) -/

/-- A job joins the tail of the gang job queue, and its area goes to the matching wait state (R104, R106). -/
def queueJob (a : AreaNo) (k : JobKind) (c : AreaCause) (s : State) : State :=
  setDeck a k.waiting c (setJobs (s.jobs ++ [⟨a, k⟩]) s)

/-- A job is created, and a dispatch pass follows. DEDUCED: notes/assumptions/9.md. -/
def createJob (a : AreaNo) (k : JobKind) (c : AreaCause) (s : State) : State := dispatchPass (queueJob a k c s)

/-- The queued job of an area is removed from the gang job queue, and the area's deck state changes (R105, R107). -/
def withdrawJob (a : AreaNo) (d : Deck) (c : AreaCause) (s : State) : State :=
  setDeck a d c (setJobs (s.jobs.filter fun x => decide (x.area ≠ a)) s)

/-- The first LASH_LEAD records of a crane's queue (R22). -/
def leading (s : State) (k : CraneNo) : List MoveRecord := (s.queues[k]).take (par s Config.LASH_LEAD)

/-- The unlash test of an area calls for an UNLASH job (R104). -/
def unlashDue (s : State) (a : AreaNo) : Bool :=
  decide (s.areas[a].deck = .lashed) && cranes.any fun k => (leading s k).any fun r => decide (a ∈ deckAreas s r)

/-- The unlash test of an area (R104). -/
def unlashTest (s : State) (a : AreaNo) : State := if unlashDue s a then createJob a .unlash .unlashQueued s else s

/-- No record of the pool has a deck point in the area. -/
def noDeckWork (s : State) (a : AreaNo) : Bool := (pool s).all fun r => decide (a ∉ deckAreas s r)

/-- The lash test of an area calls for a LASH job (R106). -/
def lashDue (s : State) (a : AreaNo) : Bool :=
  decide (s.areas[a].deck = .opened) && s.areas[a].lashRequired && noDeckWork s a

/-- The lash test of an area (R106). -/
def lashTest (s : State) (a : AreaNo) : State := if lashDue s a then createJob a .lash .lashQueued s else s

/-- The test of R105: an UNLASH job whose area has no deck work any longer is withdrawn. -/
def unlashWithdrawTest (s : State) (a : AreaNo) : State :=
  if s.areas[a].deck = .unlashWait ∧ noDeckWork s a then withdrawJob a .lashed .unlashWithdrawn s else s

/-- The lashing table is told that a crane's queue has changed (R22, R104): the areas of the leading records are tested
in queue order, those of a record in the order of its points. DESIGN CHOICE: notes/assumptions/33.md. -/
def queueChanged (k : CraneNo) (s : State) : State :=
  ((leading s k).flatMap (deckAreas s)).foldl unlashTest s

/-- The lashing table is told of areas that a freed or amended record has left (R105, R106); they are tested in the order
of the record's points. DESIGN CHOICE: notes/assumptions/34.md. -/
def deckPointsLost (as : List AreaNo) (s : State) : State :=
  as.foldl (fun s a => lashTest (unlashWithdrawTest s a) a) s

/-- The lashing table is told of areas in which a record has gained a deck point: a LASH job that waits there is
withdrawn (R107), in the order of the record's points. DESIGN CHOICE: notes/assumptions/34.md. -/
def deckPointsGained (as : List AreaNo) (s : State) : State :=
  as.foldl (fun s a => if s.areas[a].deck = .lashWait then withdrawJob a .opened .lashWithdrawn s else s) s

/-- A gang leaves its job: the job goes to the head of the queue, the area back to the wait state, and the gang present
is cleared (R108, R111). -/
def returnJob (j : Job) (s : State) : State :=
  setJobs (j :: s.jobs) s |> setDeck j.area j.kind.waiting .returned |> setGangPresent j.area none

end Sys2Proof.Machine
end

