-- ==== Sys2Proof/Machine/Release.lean ====
section
/-! DEFINITION. The release unit (Chapter 2) and the cycle and call-forward unit (Chapter 3): agreement, the release
condition, the candidate search, clearance, release, blocking reasons, cycle measurement, the horizon, ahead times and
the call check. -/

namespace Sys2Proof.Machine

/-! ### Agreement (R38, R40) -/

/-- A view names a move number that is not in the pool. -/
def viewUnknown (s : State) (v : View) : Bool :=
  v.active.any (fun n => !inPool s n) || v.staged.any (fun n => !inPool s n)

/-- The JOBLIST mark that the test of agreement gives crane `k` (R38). DEDUCED: notes/assumptions/7.md. -/
def agreement (s : State) (k : CraneNo) : JobMark :=
  let c := s.cranes[k]
  match c.view with
  | none => .full
  | some v =>
    if viewUnknown s v then .empty
    else if v.active = c.active ∧ v.staged = c.staged then .clear
    else .full

/-- The release unit tests agreement for crane `k` (R38). -/
def testAgreement (k : CraneNo) (s : State) : State := modCrane k (fun c => { c with jobMark := agreement s k }) s

/-! ### The release condition, the window and the candidate search (R27, R30, R31) -/

/-- A WITHDRAW directive is pending for the crane. -/
def withdrawPending (c : Crane) : Bool := c.directive.any fun d => decide (d.kind = .withdraw)

/-- The release condition apart from the staged slot: parts 1 to 6 of R27. -/
def craneOpen (s : State) (k : CraneNo) : Bool :=
  let c := s.cranes[k]
  decide (c.mode = .inService) && !c.held && !withdrawPending c && !c.fault &&
    decide (stationState s (.crane k) = .active) && decide (s.berth.state = .running)

/-- The release condition (R27). -/
def releaseCondition (s : State) (k : CraneNo) : Bool := craneOpen s k && s.cranes[k].staged.isNone

/-- The window: WINDOW moves of the queue from the first that is neither ACTIVE nor STAGED (R30). -/
def window (s : State) (k : CraneNo) : List MoveRecord :=
  ((s.queues[k]).dropWhile (·.busy)).take (par s Config.WINDOW)

/-- The horizon: the first CALL_DEPTH records of the queue (R53). -/
def horizon (s : State) (k : CraneNo) : List MoveRecord := (s.queues[k]).take (par s Config.CALL_DEPTH)

/-- A request from crane `k` whose move stands neither in its horizon nor in its window is withdrawn (R90).
DEDUCED: notes/assumptions/12.md. -/
def dropStaleRequest (k : CraneNo) (s : State) : State :=
  withdrawRequests (fun q => decide (q.crane = k) &&
    !(horizon s k ++ window s k).any fun r => decide (r.number = q.move)) s

/-- The positions of the bays that a move names: its claim set (R33). -/
def claims (s : State) (r : MoveRecord) : List Nat := r.points.filterMap fun p => (bayRow s p.1).map (·.position)

/-- The move claims of a crane: those of its ACTIVE and STAGED moves (R33). -/
def moveClaims (s : State) (k : CraneNo) : List Nat := ((s.queues[k]).filter (·.busy)).flatMap (claims s)

/-- A crane is idle when it has neither an ACTIVE nor a STAGED move (R33). -/
def idle (s : State) (k : CraneNo) : Bool := !(s.queues[k]).any (·.busy)

/-- Every position of `xs` is at least SEP less than every position of `ys` (R34: signed, equality passes). -/
def clearOf (sep : Nat) (xs ys : List Nat) : Bool := xs.all fun x => ys.all fun y => decide (x + sep ≤ y)

/-- The nearest idle crane below `k`: the in-roster idle crane of greatest number below it (R34 condition 3). -/
def idleBelow (s : State) (k : CraneNo) : Option CraneNo :=
  (cranes.filter fun j => decide (j < k) && inRoster s j && idle s j).getLast?

/-- The nearest idle crane above `k` (R34 condition 4). -/
def idleAbove (s : State) (k : CraneNo) : Option CraneNo :=
  (cranes.filter fun j => decide (k < j) && inRoster s j && idle s j).head?

/-- The last position of a crane as a list of at most one position. -/
def lastPosition (s : State) (k : CraneNo) : List Nat := s.cranes[k].position.toList

/-- A candidate of crane `k` passes the clearance test (R34). -/
def clearance (s : State) (k : CraneNo) (r : MoveRecord) : Bool :=
  let sep := par s Config.SEP
  let mine := claims s r
  (cranes.all fun j =>
    !inRoster s j ||
      ((!decide (j < k) || clearOf sep (moveClaims s j) mine) && (!decide (k < j) || clearOf sep mine (moveClaims s j)))) &&
  ((idleBelow s k).all fun j => clearOf sep (lastPosition s j) mine) &&
  ((idleAbove s k).all fun j => clearOf sep mine (lastPosition s j))

/-- The move needs no lane to be found: a RESTOW, or a move that holds a slot (R31 step 2). -/
def laneSettled (r : MoveRecord) : Bool := !r.kind.laneKind || r.lane.isSome

/-- A move that the candidate search has chosen, with the lane found for it where it needs one. -/
structure Candidate where
  number : MoveNo
  lane : Option LaneNo
  deriving DecidableEq, Repr

/-- The candidate search over the moves of a window, in queue order (R31). A READY move that finds no lane may raise a
request (R88). -/
def searchMoves (k : CraneNo) : List MoveRecord → State → State × Option Candidate
  | [], s => (s, none)
  | r :: rs, s =>
    if r.state ≠ .ready then searchMoves k rs s
    else if laneSettled r then
      if clearance s k r then (s, some ⟨r.number, none⟩) else searchMoves k rs s
    else
      match laneFound s k with
      | none => searchMoves k rs (raiseRequest k r.number s)
      | some l => if clearance s k r then (s, some ⟨r.number, some l⟩) else searchMoves k rs s

/-! ### Release (R32) -/

/-- The record `r` goes to ACTIVE at the head of crane `k`'s queue, and its number into the active slot (R15). -/
def toActive (k : CraneNo) (r : MoveRecord) (s : State) : State :=
  setQueue k (activate s k r :: without r.number s.queues[k]) s
    |> modCrane k (fun c => { c with active := some r.number, deferStart := none, waitMark := none })

/-- The record `r` goes to STAGED directly behind crane `k`'s ACTIVE move, and its number into the staged slot
(R15). -/
def toStaged (k : CraneNo) (r : MoveRecord) (s : State) : State :=
  setQueue k (placeBehindActive { r with state := .staged } (without r.number s.queues[k])) s
    |> modCrane k (fun c => { c with staged := some r.number })

/-- A slot is reserved for the candidate where the search found it a lane (R32). -/
def reserveFound (k : CraneNo) (c : Candidate) (s : State) : State :=
  match c.lane with
  | some l => reserve k c.number l s
  | none => s

/-- The candidate is released: by through release where the active slot is empty, and to STAGED where it holds a move;
agreement is tested and the lashing table is told (R32). -/
def releaseMove (k : CraneNo) (c : Candidate) (s : State) : State :=
  let t := reserveFound k c s
  match findIn t k c.number with
  | none => t
  | some r => queueChanged k (testAgreement k (if t.cranes[k].active.isNone then toActive k r t else toStaged k r t))

/-- One candidate search of crane `k` and the release it makes. -/
def searchAndRelease (k : CraneNo) (s : State) : State :=
  match searchMoves k (window s k) s with
  | (u, none) => u
  | (u, some c) => releaseMove k c u

/-- The part of an evaluation that the release condition allows: the search and release, and after a through release
the repeated search (R28, R32). -/
def releaseWork (k : CraneNo) (s : State) : State :=
  if releaseCondition s k then
    let t := searchAndRelease k s
    if s.cranes[k].active.isNone ∧ t.cranes[k].active.isSome then searchAndRelease k t else t
  else s

/-- An evaluation of crane `k` apart from the call check of an activation: a stale request of the crane is withdrawn,
whatever the condition says (R90, R28), and then the release condition is tested. -/
def evaluateOnce (k : CraneNo) (s : State) : State := releaseWork k (dropStaleRequest k s)

/-! ### Cycle times (R48 to R52) -/

/-- The expected time of a move on crane `k`, in whole ds (R52). -/
def expected (s : State) (k : CraneNo) (kind : MoveKind) : Nat :=
  (if kind = .dual then s.cycles[k].dual else s.cycles[k].single) / 16

/-- The correction of a smoothed time: D·w / 16 to the nearest integer, ties away from zero (R50 step 3). -/
def correction (d : Int) (w : Nat) : Int :=
  let x := d * w
  if 0 ≤ x then (x + 8) / 16 else -((8 - x) / 16)

/-- A smoothed time updated by a measured time (R50). -/
def smooth (s : State) (old m : Nat) : Nat :=
  let lo := par s Config.CYCLE_MIN
  let hi := par s Config.CYCLE_MAX
  let d : Int := 16 * (clamp lo hi m : Nat) - (old : Int)
  clamp (16 * lo) (16 * hi) ((old : Int) + correction d (par s Config.SMOOTH_WEIGHT)).toNat

/-- The measured time of a completion now: from the later of the last completion and the activation (R48).
DEDUCED: notes/assumptions/23.md. -/
def measured (s : State) (k : CraneNo) (r : MoveRecord) : Nat :=
  let act := (r.activation.map (age s.clock)).getD 0
  match s.cranes[k].lastCompletion with
  | none => act
  | some t => min (age s.clock t) act

/-- A measurement is discarded on hold overlap, for an abandoned move, and for a first cycle (R49). -/
def discarded (s : State) (k : CraneNo) (r : MoveRecord) : Bool :=
  r.holdOverlap || r.abandoned || s.cranes[k].lastCompletion.isNone

/-- The measurement made at the completion of record `r` on crane `k` (R48 to R50). -/
def measure (k : CraneNo) (r : MoveRecord) (s : State) : State :=
  let c := s.cycles[k]
  let m := measured s k r
  let new : Cycle :=
    if discarded s k r then c
    else if r.kind = .dual then { c with dual := smooth s c.dual m }
    else { c with single := smooth s c.single m }
  setCycle k new s |> modCrane k (fun x => { x with lastCompletion := some s.clock })

/-! ### The call check (R55 to R58) -/

/-- The remainder of crane `k`'s ACTIVE move (R55). -/
def remainder (s : State) (k : CraneNo) : Nat :=
  match s.cranes[k].active.bind (findIn s k) with
  | some r => expected s k r.kind - (r.activation.map (age s.clock)).getD 0
  | none => 0

/-- The ahead times of horizon moves, given the sum so far: 0 for the ACTIVE move, and for each other the remainder
and the expected times of the non-ACTIVE moves before it (R55). -/
def aheadTimes (s : State) (k : CraneNo) : Nat → List MoveRecord → List (MoveNo × Nat)
  | _, [] => []
  | a, r :: rs =>
    if r.state = .active then (r.number, 0) :: aheadTimes s k a rs
    else (r.number, a) :: aheadTimes s k (a + expected s k r.kind) rs

/-- The identifiers of the boxes a truck must bring: those of a LOAD leg, and none for a DISCHARGE (R58). -/
def boxesToBring (r : MoveRecord) : List (List Byte) :=
  match r.kind with
  | .load | .dual => (r.legs.take 1).flatMap fun l => l.box1.identifier :: (l.box2.map (·.identifier)).toList
  | .discharge | .restow => []

/-- A call is issued for a move whose slot is RESERVED (R58). -/
def issueCall (r : MoveRecord) (l : LaneNo) (ahead : Nat) (s : State) : State :=
  setSlot l (.called r.number) s
    |> modMove r.number (fun x => { x with called := true })
    |> report (.truckCall l r.number ahead (boxesToBring r))

/-- Step 1 of the call check for a horizon move: a reservation where it has a lane need and holds no slot, or a request
where no lane is found (R57, R88). -/
def checkReserve (k : CraneNo) (n : MoveNo) (s : State) : State :=
  match findIn s k n with
  | none => s
  | some r =>
    if laneNeed r && r.lane.isNone then
      match laneFound s k with
      | some l => reserve k n l s
      | none => raiseRequest k n s
    else s

/-- Step 2 of the call check for a horizon move: the call falls due when the ahead time is no greater than the travel
time of the lane plus CALL_MARGIN (R57). -/
def checkCall (k : CraneNo) (n : MoveNo) (ahead : Nat) (s : State) : State :=
  match findIn s k n with
  | none => s
  | some r =>
    match r.lane with
    | none => s
    | some l =>
      if laneNeed r ∧ s.lanes[l].slot = .reserved n ∧ ahead ≤ s.lanes[l].travel + par s Config.CALL_MARGIN then
        issueCall r l ahead s
      else s

/-- The call check of crane `k` itself (R57). -/
def checkMoves (k : CraneNo) (s : State) : State :=
  (aheadTimes s k (remainder s k) (horizon s k)).foldl (fun s (n, a) => checkCall k n a (checkReserve k n s))
    (dropStaleRequest k s)

/-- The conditions under which a call check is made (R56). -/
def checkAllowed (s : State) (k : CraneNo) : Bool :=
  decide (s.cranes[k].mode = .inService) && decide (stationState s (.crane k) ≠ .silent) &&
    decide (s.berth.state = .running)

/-- A move of crane `k` holds a slot in `t` and held none in `s`: the release unit is told of a reservation (R57). -/
def reservedBetween (s t : State) (k : CraneNo) : Bool :=
  (t.queues[k]).any fun r =>
    r.lane.isSome && (s.queues[k]).any fun r0 => decide (r0.number = r.number) && r0.lane.isNone

/-- The call check made for an activation, once the evaluation is over (R32, R56), with the one evaluation that the
reservations of the check call for, after its last move (R28, R57). The active slot is filled by then, so this evaluation
makes no through release. DESIGN CHOICE: notes/assumptions/31.md. -/
def checkAfterActivation (k : CraneNo) (s : State) : State :=
  if checkAllowed s k then
    let t := checkMoves k s
    if reservedBetween s t k then evaluateOnce k t else t
  else s

/-- The release unit evaluates crane `k` (R28), and after a through release the call check of that activation is
made (R56). -/
def evaluate (k : CraneNo) (s : State) : State :=
  let t := evaluateOnce k s
  if s.cranes[k].active.isNone ∧ t.cranes[k].active.isSome then checkAfterActivation k t else t

/-- The call check of crane `k` at a point of R56, and the one evaluation that its reservations call for, after its last
move (R57). DESIGN CHOICE: notes/assumptions/31.md. -/
def callCheck (k : CraneNo) (s : State) : State :=
  if checkAllowed s k then
    let t := checkMoves k s
    if reservedBetween s t k then evaluate k t else t
  else s

/-- The order in which several cranes are evaluated: the cranes that the open order lists first, then the others in
quay order, each once (R29; notes/assumptions/2.md). -/
def openOrder (s : State) (ks : List CraneNo) : List CraneNo :=
  ((Config.evaluationOrder s.freeCount ++ cranes).eraseDups).filter fun k => decide (k ∈ ks)

/-- The release unit evaluates several cranes, each seeing what the evaluations before it have left (R29).
DEDUCED: notes/assumptions/9.md. -/
def evaluateMany (ks : List CraneNo) (s : State) : State :=
  match ks with
  | [] => s
  | [k] => evaluate k s
  | _ => (openOrder s ks).foldl (fun s k => evaluate k s) (useFree s)

/-! ### Blocking reasons (R44) -/

/-- The blocking reason of crane `k` (TABLE 17). -/
def blockReason (s : State) (k : CraneNo) : BlockReason :=
  match window s k with
  | [] => .queueEmpty
  | r :: _ =>
    if !craneOpen s k then .craneHeld
    else
      match pendingCause s r with
      | some c => c
      | none => if !laneSettled r && (laneFound s k).isNone then .lane else .clearance

/-! ### Handover of a shared lane (R89) -/

/-- The handover of lane `l` for the request `q`: the requesting crane becomes the owner, the request is removed, and
the named move is reserved in the lane where it still needs a slot; the release unit is told of a reservation (R86). -/
def handOver (l : LaneNo) (q : Request) (s : State) : State :=
  let t := modLane l (fun x => { x with owner := some q.crane, request := none }) s
  match findIn t q.crane q.move with
  | some r => if r.lane.isNone && laneNeed r then evaluate q.crane (reserve q.crane q.move l t) else t
  | none => t

end Sys2Proof.Machine
end

