-- ==== Sys2Proof/Machine/BerthHold.lean ====
section
/-! DEFINITION. The berth hold unit (Chapter 8): causes, the entry into a hold, HOLDING and HELD, wind readings, calm,
the debounced contact, and the release of the berth. -/

namespace Sys2Proof.Machine

/-- A qualifying crane is IN_SERVICE and its station is not SILENT (R131). -/
def qualifying (s : State) (k : CraneNo) : Bool :=
  decide (s.cranes[k].mode = .inService) && decide (stationState s (.crane k) ≠ .silent)

/-- The state of a held berth: HOLDING while a qualifying crane has an ACTIVE move, HELD when none has (R131). -/
def holdState (s : State) : BerthState :=
  if cranes.any fun k => qualifying s k && s.cranes[k].active.isSome then .holding else .held

/-- The berth hold unit tests the berth state; `who` is the crane whose change calls for the test (R131).
DEDUCED: notes/assumptions/25.md. -/
def testBerth (who : Option CraneNo) (s : State) : State :=
  match s.berth.state, holdState s with
  | .holding, .held => report (.berth (.toHeld s.berth.causes)) (modBerth (fun b => { b with state := .held }) s)
  | .held, .holding =>
    report (.berth (.toHolding s.berth.causes who)) (modBerth (fun b => { b with state := .holding }) s)
  | _, _ => s

/-- A cause is in the set. -/
def Causes.has (c : Causes) : BerthCause → Bool
  | .contact => c.contact
  | .wind => c.wind
  | .command => c.command

/-- A cause joins the set. -/
def Causes.add (c : Causes) : BerthCause → Causes
  | .contact => { c with contact := true }
  | .wind => { c with wind := true }
  | .command => { c with command := true }

/-- Steps 2 to 6 of the entry into a hold (R135): requests, staged moves, slots, hold-overlap flags, and the test of
agreement for each crane whose staged slot was emptied. -/
def stopWork (s : State) : State :=
  let s2 := withdrawRequests (fun _ => true) s
  let s3 := cranes.foldl (fun s k => takeBack k s) s2
  let s4 := releaseSlots .berthHold (fun _ r => decide (r.state ≠ .active)) s3
  let s5 := cranes.foldl (fun s k => markOverlap k s) s4
  (cranes.filter fun k => s.cranes[k].staged.isSome).foldl (fun s k => testAgreement k s) s5

/-- The berth enters a hold with cause `c` (R135). No step of the entry reads the cause set, so the cause is written with
the new state. DEDUCED: notes/assumptions/25.md. -/
def enterHold (c : BerthCause) (s : State) : State :=
  let t := stopWork s
  let st := holdState t
  let u := modBerth (fun b => { b with causes := b.causes.add c, state := st }) t
  report (.berth (.entered st c u.berth.causes)) u

/-- A cause is added: a cause already in the set changes nothing, a cause added while RUNNING enters a hold, and a
cause added in HOLDING or HELD joins the set (R130, TABLE 45). -/
def addCause (c : BerthCause) (s : State) : State :=
  if s.berth.causes.has c then s
  else if s.berth.state = .running then enterHold c s
  else
    let t := modBerth (fun b => { b with causes := b.causes.add c }) s
    report (.berth (.causeAdded t.berth.state c t.berth.causes)) t

/-- A wind reading of crane `k`: a reading that counts restarts the calm timer at or above WIND_RESUME and adds WIND at
or above WIND_STOP (R133, R137). -/
def windReading (k : CraneNo) (w : Nat) (s : State) : State :=
  if qualifying s k then
    let t := if par s Config.WIND_RESUME ≤ w then modBerth (fun b => { b with calmStart := some s.clock }) s else s
    if par s Config.WIND_STOP ≤ w then addCause .wind t else t
  else s

/-- Calm holds when the timer holds none, or its age is at least CALM_INTERVAL (R137). -/
def calm (s : State) : Bool :=
  match s.berth.calmStart with
  | none => true
  | some t => decide (par s Config.CALM_INTERVAL ≤ age s.clock t)

/-- Every cause leaves the set, the berth becomes RUNNING, every crane is evaluated, and a dispatch pass is made
(R138). -/
def releaseHold (s : State) : State :=
  modBerth (fun b => { b with state := .running, causes := ⟨false, false, false⟩ }) s
    |> report (.berth (.released s.berth.state s.berth.causes))
    |> evaluateMany cranes
    |> dispatchPass

/-- The raw level of the stop contact changes, and the quay clock is recorded (R132). -/
def contactChanges (closed : Bool) (s : State) : State :=
  if s.berth.rawClosed = closed then s
  else modBerth (fun b => { b with rawClosed := closed, lastChange := s.clock }) s

/-- The raw level has stood for 5 ds and differs from the debounced level (R132). -/
def contactDue (s : State) : Bool :=
  decide (s.berth.rawClosed ≠ s.berth.closed) && decide (5 ≤ age s.clock s.berth.lastChange)

/-- The debounced level takes the raw level; an opening adds the cause CONTACT (R132). -/
def contactSettles (s : State) : State :=
  let t := modBerth (fun b => { b with closed := b.rawClosed }) s
  if s.berth.rawClosed then t else addCause .contact t

end Sys2Proof.Machine
end

