-- ==== Sys2Proof/Machine/Orders.lean ====
section
/-! DEFINITION. The orders of the move table (Chapter 1): their tests, acceptance, and the freeing of a record. -/

namespace Sys2Proof.Machine

/-- What a unit answers to a telegram: the state it leaves, the outcome and data of its RESPONSE (R161), and uplink
settings that take effect once that RESPONSE is sent (R165). -/
structure Answer where
  state : State
  result : Result
  data : List Byte
  settings : Option LineSettings

/-- A refused telegram changes no state (R7, R120, R171). -/
def refuse (r : Result) (s : State) : Answer := ⟨s, r, [], none⟩

def accept (s : State) : Answer := ⟨s, .accepted, [], none⟩

/-! ### Validity (R3, R4) -/

/-- An identifier is eleven capital letters or digits (R4). -/
def identifierValid (i : List Byte) : Bool :=
  decide (i.length = 11) &&
    i.all fun c => (0x30 ≤ c.toNat && c.toNat ≤ 0x39) || (0x41 ≤ c.toNat && c.toNat ≤ 0x5A)

def boxValid (b : Box) : Bool := identifierValid b.identifier && decide (b.mass ≤ 700)

/-- A box list is valid: one or two valid boxes; a twin is of two 20-foot boxes within TWIN_MASS_LIMIT (R4). -/
def boxesValid (s : State) (l : Leg) : Bool :=
  boxValid l.box1 &&
    match l.box2 with
    | none => true
    | some b =>
      boxValid b && decide (l.box1.size = .ft20 ∧ b.size = .ft20) &&
        decide (l.box1.mass + b.mass ≤ par s Config.TWIN_MASS_LIMIT)

/-- A leg is valid: each of its bays is in the bay map, and its box list is valid (R4). -/
def legValid (s : State) (l : Leg) : Bool := (l.points.all fun p => (bayRow s p.1).isSome) && boxesValid s l

/-- The number of legs of a kind (TABLE 8). -/
def MoveKind.legCount : MoveKind → Nat
  | .dual => 2
  | .discharge | .load | .restow => 1

def legsValid (s : State) (kind : MoveKind) (legs : List Leg) : Bool :=
  decide (legs.length = kind.legCount) && legs.all (legValid s)

/-! ### Freeing and voiding (R20, R21) -/

/-- The records whose after-move names `n` have it made absent, and are evaluated (R6, R14). -/
def clearAfterMove (n : MoveNo) (s : State) : State :=
  mapMoves (fun r =>
    if r.afterMove = some n then
      let x := { r with afterMove := none }
      if r.busy then x else evaluateRecord s x
    else r) s

/-- The cranes with a PENDING record that the freeing of move `n` makes READY: its after-move named `n`, and it is eligible
with its after-move absent. The release unit is told of them (R14, R28), and evaluates them even where a dispatch pass of the
same step has made the record PENDING again by then (R114). -/
def dependentsMadeReady (n : MoveNo) (s : State) : List CraneNo :=
  cranes.filter fun k => (s.queues[k]).any fun x =>
    decide (x.afterMove = some n) && decide (x.state = .pending) && eligible s { x with afterMove := none }

/-- Record `r` of crane `k`'s queue is freed (R21): it leaves the pool and its queue, dependents are evaluated, a
request that names it is withdrawn (R90), and the lashing table is told of its areas and of the queue. -/
def freeRecord (k : CraneNo) (r : MoveRecord) (s : State) : State :=
  setQueue k (without r.number s.queues[k]) s
    |> clearAfterMove r.number
    |> withdrawRequests (fun q => decide (q.move = r.number))
    |> deckPointsLost (deckAreas s r)
    |> queueChanged k

/-- A PENDING, READY or STAGED record of crane `k` is voided (R20): taken back where it is STAGED, its slot released
with the cause VOIDED, freed, and a MOVE_STATE report queued. -/
def voidRecord (k : CraneNo) (r : MoveRecord) (c : MoveCause) (s : State) : State :=
  let s1 := if r.state = .staged then modCrane k (fun x => { x with staged := none }) s else s
  let s2 := match r.lane with
    | some l => releaseSlot .voided s1 l
    | none => s1
  report (.moveState r.number k c) (freeRecord k r s2)

/-- A record is voided, and what follows: where it was STAGED agreement is tested and its crane evaluated; the cranes
with a dependent made READY are evaluated; and where it was STAGED a dispatch pass follows (R11, R28, R37, R124).
DEDUCED: notes/assumptions/9.md. Agreement is tested after the record is freed, for an ORDER_CANCEL as for a SKIP, though
R11 tells the release unit of the emptied slot before it voids: DESIGN CHOICE: notes/assumptions/38.md. -/
def voidAndFollow (k : CraneNo) (r : MoveRecord) (c : MoveCause) (s : State) : State :=
  let t := voidRecord k r c s
  let told := dependentsMadeReady r.number s
  if r.state = .staged then
    dispatchPass (evaluateMany (cranes.filter fun j => decide (j = k ∨ j ∈ told)) (testAgreement k t))
  else evaluateMany told t

/-! ### ORDER_ADD (R8, R9) -/

/-- The new record: the planned part as given, its after-move kept only if that move is in the pool (R6), and the
runtime part of R5, with the state that the evaluation of R13 gives. -/
def newRecord (s : State) (o : AddOrder) : MoveRecord :=
  evaluateRecord s
    { number := o.number, kind := o.kind, legs := o.legs
      afterMove := o.afterMove.filter (inPool s)
      state := .pending, lane := none, called := false, readyTime := none, activation := none, progress := none
      holdOverlap := false, abandoned := false }

/-- The queue with the new record in its place (R9). -/
def placeNew (r : MoveRecord) (before : Option MoveNo) (q : List MoveRecord) : List MoveRecord :=
  match before with
  | none => q ++ [r]
  | some b => if q.any fun x => decide (x.number = b) && x.busy then placeBehindBusy r q else placeBefore r b q

/-- The release unit is told of the moves made READY since `s0`. -/
def tellRelease (s0 s : State) : State := evaluateMany (newlyReady s0 s) s

/-- An accepted ORDER_ADD (R9): the record is placed, the release unit is told if it is READY, and the lashing table is
told of its deck points and of the queue; the cranes with a move made READY by an area that the record has opened (R107)
are evaluated at the end. DEDUCED: notes/assumptions/9.md. The LASH jobs of the areas gained are withdrawn before the unlash
tests are made. DESIGN CHOICE: notes/assumptions/34.md. -/
def addRecord (k : CraneNo) (o : AddOrder) (s : State) : State :=
  let r := newRecord s o
  let t := tellRelease s (setQueue k (placeNew r o.beforeMove s.queues[k]) s)
  let u := deckPointsGained (deckAreas t r) t
  evaluateMany (newlyReady t u) (queueChanged k u)

/-- The tests of ORDER_ADD in the sequence of R8: `none` where every test passes. -/
def addRefusal (s : State) (k : CraneNo) (o : AddOrder) : Option Result :=
  if o.number = 0 ∨ !legsValid s o.kind o.legs ∨ o.beforeMove.any (fun b => (findIn s k b).isNone) then some .range
  else if inPool s o.number then some .duplicate
  else if Config.poolCapacity ≤ (pool s).length ∨ Config.queueCapacity ≤ (s.queues[k]).length then some .full
  else none

/-- ORDER_ADD addressed to crane `k` (R7, R8, R9). DESIGN CHOICE: notes/assumptions/6.md. -/
def takeAdd (k : CraneNo) (body : List Byte) (s : State) : Answer :=
  if !inRoster s k then refuse .state s
  else
    match readAdd body with
    | none => refuse .range s
    | some o =>
      match addRefusal s k o with
      | some r => refuse r s
      | none => accept (addRecord k o s)

/-! ### ORDER_AMEND (R10) -/

/-- An accepted ORDER_AMEND (R10): the legs are written, the record is evaluated, and the release unit and the lashing
table are told: LASH jobs of areas gained are withdrawn, then the areas lost are tested, then the leading records (R107,
R105, R106, R104). DESIGN CHOICE: notes/assumptions/34.md. The cranes with a move made READY by an area gained are evaluated
at the end. An area is gained where the record had no deck point in it before: one more deck point in an area where it had
one withdraws no LASH job. DESIGN CHOICE: notes/assumptions/40.md. -/
def amendRecord (k : CraneNo) (r : MoveRecord) (legs : List Leg) (s : State) : State :=
  let r' := evaluateRecord s { r with legs := legs }
  let t := tellRelease s (modMove r.number (fun _ => r') s)
  let before := deckAreas t r
  let after := deckAreas t r'
  let u := deckPointsGained (after.filter fun a => decide (a ∉ before)) t
  deckPointsLost (before.filter fun a => decide (a ∉ after)) u
    |> queueChanged k
    |> evaluateMany (newlyReady t u)

/-- The legs that an ORDER_AMEND gives for record `r`, where its third test passes: the body keeps its layout, the kind
is the record's, and the legs are valid for it (R7, R10). -/
def amendedLegs (s : State) (r : MoveRecord) (body : List Byte) : Option (List Leg) :=
  match readAmend body with
  | none => none
  | some o => if o.kind = r.kind ∧ legsValid s r.kind o.legs then some o.legs else none

/-- ORDER_AMEND addressed to crane `k`: the move that its first two bytes name is sought, and its tests are made in the
sequence of R10; a body too short to name a move is refused RANGE. DESIGN CHOICE: notes/assumptions/6.md. -/
def takeAmend (k : CraneNo) (body : List Byte) (s : State) : Answer :=
  match body with
  | n1 :: n0 :: _ =>
    match findIn s k (moveOf n1 n0) with
    | none => refuse .unknown s
    | some r =>
      if r.busy then refuse .collision s
      else
        match amendedLegs s r body with
        | none => refuse .range s
        | some legs => accept (amendRecord k r legs s)
  | _ => refuse .range s

/-! ### ORDER_CANCEL (R11) -/

/-- ORDER_CANCEL addressed to crane `k`: its tests in the sequence of R11. DESIGN CHOICE: notes/assumptions/6.md. -/
def takeCancel (k : CraneNo) (body : List Byte) (s : State) : Answer :=
  match readCancel body with
  | none => refuse .range s
  | some n =>
    match findIn s k n with
    | none => refuse .unknown s
    | some r => if r.state = .active then refuse .collision s else accept (voidAndFollow k r .voidedCancel s)

end Sys2Proof.Machine
end

