-- ==== Sys2Proof/Machine/Directives.lean ====
section
/-! DEFINITION. The directive unit (Chapter 7): the pending directive slot, each kind's immediate effect and acceptance
point, and the acceptance of a WITHDRAW by silence. -/

namespace Sys2Proof.Machine

/-! ### Acceptance (R121) -/

/-- The pending directive `d` of crane `k` is accepted: its slot is emptied and a DIRECTIVE report queued (R121).
DESIGN CHOICE: notes/assumptions/10.md. -/
def accepted (k : CraneNo) (d : PendingDirective) (way : Acceptance) (s : State) : State :=
  report (.directive k d.number d.kind d.move way) (modCrane k (fun c => { c with directive := none }) s)

/-- A move is one of crane `k`'s that is not ACTIVE. -/
def notActiveOf (k : CraneNo) (j : CraneNo) (r : MoveRecord) : Bool := decide (j = k ∧ r.state ≠ .active)

/-- Steps 1 to 3 of the acceptance of a WITHDRAW (R126): the mode, the slots of the crane's moves, its requests. -/
def withdrawCrane (k : CraneNo) (s : State) : State :=
  modCrane k (fun c => { c with mode := .withdrawn }) s
    |> testBerth (some k)
    |> releaseSlots .withdrawn (notActiveOf k)
    |> withdrawRequests (fun q => decide (q.crane = k))

/-- The acceptance point of crane `k`'s pending directive is tested: a HOLD or a WITHDRAW is accepted by NORMAL when the
active slot is empty (R121). -/
def testAcceptance (k : CraneNo) (s : State) : State :=
  match s.cranes[k].directive with
  | none => s
  | some d =>
    if s.cranes[k].active.isSome then s
    else accepted k d .normal (if d.kind = .withdraw then withdrawCrane k s else s)

/-! ### Abandonment and acceptance by silence (R19, R127) -/

/-- The record of an abandoned move: its leg progress absent, its abandoned mark set, and its state evaluated (R19). -/
def abandonedRecord (s : State) (r : MoveRecord) : MoveRecord :=
  evaluateRecord s { r with progress := none, abandoned := true }

/-- Crane `k`'s ACTIVE move `n` is abandoned (R19, R127 step 1): its reports come in the order TRUCK_CANCEL, BERTH, MOVE_STATE.
DESIGN CHOICE: notes/assumptions/10.md. -/
def abandon (k : CraneNo) (n : MoveNo) (s : State) : State :=
  let s1 := modCrane k (fun c => { c with active := none }) s
  let s2 := match (findIn s1 k n).bind (·.lane) with
    | some l => releaseSlot .withdrawn s1 l
    | none => s1
  modMove n (abandonedRecord s2) s2
    |> withdrawRequests (fun q => decide (q.move = n))
    |> testBerth (some k)
    |> report (.moveState n k .abandoned)

/-- A pending WITHDRAW of crane `k` has met SILENT_WITHDRAW ds of silence (R127). -/
def silenceDue (s : State) (k : CraneNo) : Bool :=
  withdrawPending s.cranes[k] &&
    s.cranes[k].silenceStart.any fun t => decide (par s Config.SILENT_WITHDRAW ≤ age s.clock t)

/-- The WITHDRAW `d` of crane `k` is accepted by SILENCE (R127). -/
def acceptBySilence (k : CraneNo) (d : PendingDirective) (s : State) : State :=
  let n := s.cranes[k].active
  let s1 := match n with
    | some n => abandon k n s
    | none => s
  withdrawCrane k s1
    |> testAgreement k
    |> evaluateMany (cranes.filter fun j => decide (j ≠ k))
    |> dispatchPass
    |> accepted k d (.silence n)

/-! ### The kinds (TABLE 42) -/

/-- Crane `k`'s STAGED move, if any, is taken back by a directive: agreement is tested, and a dispatch pass is made
since a crane slot was emptied (R122, R126). -/
def takeBackAndFollow (k : CraneNo) (s : State) : State :=
  if s.cranes[k].staged.isSome then dispatchPass (testAgreement k (takeBack k s)) else s

/-- HOLD (R122). -/
def holdCrane (k : CraneNo) (d : PendingDirective) (s : State) : Answer :=
  modCrane k (fun c => { c with held := true, directive := some d }) s
    |> markOverlap k
    |> takeBackAndFollow k
    |> testAcceptance k
    |> accept

/-- RESUME (R123). -/
def resumeCrane (k : CraneNo) (d : PendingDirective) (s : State) : Answer :=
  modCrane k (fun c => { c with held := false }) s
    |> accepted k d .normal
    |> evaluate k
    |> accept

/-- SKIP of move `n` (R124). -/
def skipMove (k : CraneNo) (d : PendingDirective) (n : MoveNo) (s : State) : Answer :=
  match findIn s k n with
  | none => refuse .unknown s
  | some r =>
    if r.state = .active then refuse .collision s
    else accept (accepted k d .normal (voidAndFollow k r .voidedSkip s))

/-- PROMOTE of move `n` (R125). -/
def promoteMove (k : CraneNo) (d : PendingDirective) (n : MoveNo) (s : State) : Answer :=
  match findIn s k n with
  | none => refuse .state s
  | some r =>
    if r.busy then refuse .state s
    else
      let q := placeBehindBusy r (without n s.queues[k])
      let t := if q = s.queues[k] then s else evaluate k (queueChanged k (setQueue k q s))
      accept (accepted k d .normal t)

/-- WITHDRAW (R126, and R127 where the crane has already been silent for SILENT_WITHDRAW). A crane with no ACTIVE move
meets its acceptance point at receipt, by NORMAL, before any expiry. DEDUCED: notes/assumptions/42.md. The hold-overlap
flag of an ACTIVE move is left as it was, though R129 says that a directive sets it: R47, R126 and TABLE 42 are followed.
DEDUCED: notes/assumptions/43.md. -/
def withdrawDirective (k : CraneNo) (d : PendingDirective) (s : State) : Answer :=
  if s.cranes[k].mode = .withdrawn then refuse .state s
  else
    let t := testAcceptance k (modCrane k (fun c => { c with directive := some d }) (takeBackAndFollow k s))
    accept (if silenceDue t k then acceptBySilence k d t else t)

/-- RETURN (R128). -/
def returnToService (k : CraneNo) (d : PendingDirective) (s : State) : Answer :=
  if s.cranes[k].mode ≠ .withdrawn then refuse .state s
  else
    modCrane k (fun c => { c with mode := .inService }) s
      |> testBerth (some k)
      |> accepted k d .normal
      |> evaluate k
      |> accept

/-- A directive that has passed the first three tests of R120, by its kind. -/
def applyDirective (k : CraneNo) (o : DirectiveOrder) (s : State) : Answer :=
  let d : PendingDirective := ⟨o.number, o.kind, o.move, s.clock⟩
  match o.kind with
  | .hold => holdCrane k d s
  | .resume => resumeCrane k d s
  | .skip => skipMove k d (o.move.getD 0) s
  | .promote => promoteMove k d (o.move.getD 0) s
  | .withdraw => withdrawDirective k d s
  | .returnCrane => returnToService k d s

/-- A DIRECTIVE telegram addressed to crane `k`: the tests of R120 in sequence. -/
def takeDirective (k : CraneNo) (body : List Byte) (s : State) : Answer :=
  if !inRoster s k then refuse .state s
  else
    match readDirective body with
    | none => refuse .range s
    | some o => if s.cranes[k].directive.isSome then refuse .busy s else applyDirective k o s

end Sys2Proof.Machine
end

