-- ==== Sys2Proof/Machine/CraneCycle.lean ====
section
/-! DEFINITION. The crane cycle unit (Chapter 4): the crane status reply, event serials, leg progress, lane events and
completion. -/

namespace Sys2Proof.Machine

/-! ### Event serials (R70, R71) -/

/-- How an event's serial sorts against the last taken (R71). -/
inductive Sorted where
  | taken
  | gap (expected : Byte)
  | duplicate
  deriving DecidableEq, Repr

/-- An event of serial `x` sorted against the last taken, if any, by the distance modulo 256 (R70, R71). -/
def sortSerial (last : Option Byte) (x : Byte) : Sorted :=
  match last with
  | none => .taken
  | some l =>
    let d := (x - l).toNat
    if d = 1 then .taken
    else if d = 0 ∨ 129 ≤ d then .duplicate
    else .gap (l + 1)

/-! ### Matching and boxes (R72, R74, R75) -/

/-- The boxes that a pick names on a leg: a mask of both boxes on a single-box leg names that one box (R75). -/
def pickLift (l : Leg) (x : CraneEventItem) : Bool × Bool := (x.box1, x.box2 && l.box2.isSome)

/-- The lift set that an event leaves: at a pick the boxes named, at a set the boxes of the lift set that are named
(R75). DEDUCED: notes/assumptions/14.md. -/
def liftAfter (l : Leg) (p : Progress) (x : CraneEventItem) : Bool × Bool :=
  if x.event.pick then pickLift l x else (p.lift1 && x.box1, p.lift2 && x.box2)

/-- An event matches the ACTIVE move: it names it, its kind is the next expected event, and its box mask names at least
one box (R72, R75). Answers the leg and the progress. -/
def matching (r : MoveRecord) (x : CraneEventItem) : Option (Leg × Progress) :=
  match r.progress, r.legOf x.event with
  | some p, some l =>
    if x.move = r.number ∧ x.event = p.next ∧ ((liftAfter l p x).1 || (liftAfter l p x).2) then some (l, p) else none
  | _, _ => none

/-- The boxes reported left at an event: at a pick the boxes of the leg not named, at a set the boxes of the lift set
not named (R75). -/
def boxesLeft (l : Leg) (p : Progress) (x : CraneEventItem) : List Box :=
  let after := liftAfter l p x
  let had1 := if x.event.pick then true else p.lift1
  let had2 := if x.event.pick then l.box2.isSome else p.lift2
  (if had1 && !after.1 then [l.box1] else []) ++ (if had2 && !after.2 then l.box2.toList else [])

/-! ### Completion (R78) -/

/-- Crane `k`'s STAGED move, if any, is promoted to ACTIVE; where there is none both slots are empty (R16). -/
def promoteStaged (k : CraneNo) (s : State) : State :=
  match s.cranes[k].staged with
  | none => modCrane k (fun c => { c with active := none }) s
  | some n =>
    modMove n (activate s k) s |> modCrane k (fun c => { c with active := some n, staged := none })

/-- Crane `k`'s ACTIVE move is completed: measurement, freeing, promotion, the directive and berth tests, release and
the call check (R78). The dispatch pass for the emptied slot (R112) stands between the evaluations and the call check.
DESIGN CHOICE: notes/assumptions/30.md. The acceptance test of a pending directive stands before the berth test, so that the
DIRECTIVE report of a HOLD comes before the BERTH report of a berth that becomes HELD (R78, R121, R131).
DESIGN CHOICE: notes/assumptions/10.md. -/
def complete (k : CraneNo) (r : MoveRecord) (s : State) : State :=
  let s1 := report (.moveDone r.number k) (freeRecord k r (measure k r s))
  let s2 := testBerth (some k) (testAcceptance k (promoteStaged k s1))
  let s3 := dispatchPass (evaluateMany cranes (testAgreement k s2))
  if s2.cranes[k].active.isNone ∧ s3.cranes[k].active.isSome then s3 else callCheck k s3

/-! ### Events (R71 to R77) -/

/-- The boxes that a matching event leaves are reported (R75). -/
def reportLeft (k : CraneNo) (n : MoveNo) (e : CraneEvent) (bs : List Box) (s : State) : State :=
  bs.foldl (fun s b => report (.crane k (.boxLeft n e b.identifier)) s) s

/-- The leg progress after a matching event: the next event of the kind and the lift set; the final event leaves it
(R72, R75). -/
def advance (r : MoveRecord) (e : CraneEvent) (lift : Bool × Bool) (s : State) : State :=
  match r.kind.after e with
  | some e' => modMove r.number (fun y => { y with progress := some ⟨e', lift.1, lift.2⟩ }) s
  | none => s

/-- A lane event of a move that holds a slot goes to the lane allocator (R76). -/
def toLane (r : MoveRecord) (e : CraneEvent) (s : State) : State :=
  match r.lane with
  | some l => if e.laneEvent then laneEvent l r.number (decide (r.kind.lastLane = some e)) s else s
  | none => s

/-- A matching event is applied: boxes left are reported, leg progress advances, a lane event goes to the lane
allocator, and the final event completes the move (R72, R75, R76, R78). -/
def applyEvent (k : CraneNo) (r : MoveRecord) (l : Leg) (p : Progress) (x : CraneEventItem) (s : State) : State :=
  let t := reportLeft k r.number x.event (boxesLeft l p x) s
    |> advance r x.event (liftAfter l p x)
    |> toLane r x.event
  match r.kind.after x.event, findIn t k r.number with
  | none, some r' => complete k r' t
  | _, _ => t

/-- An event that does not match is consumed with an EVENT_FAULT report (R74). -/
def eventFault (k : CraneNo) (r : Option MoveRecord) (x : CraneEventItem) (s : State) : State :=
  report (.crane k (.eventFault x.serial x.event x.move (r.map (·.number)) (r.bind fun r => r.progress.map (·.next)))) s

/-- The record of crane `k`'s ACTIVE move. -/
def activeRecord (s : State) (k : CraneNo) : Option MoveRecord := s.cranes[k].active.bind (findIn s k)

/-- An event taken: it is applied to the ACTIVE move if it matches, and otherwise consumed (R72, R74). -/
def takeEvent (k : CraneNo) (x : CraneEventItem) (s : State) : State :=
  match activeRecord s k with
  | none => eventFault k none x s
  | some r =>
    match matching r x with
    | some (l, p) => applyEvent k r l p x s
    | none => eventFault k (some r) x s

/-- One event of a crane's list, sorted by its serial (R71). The SERIAL_GAP report of an event ahead of the successor comes
before the reports that the event itself raises. DESIGN CHOICE: notes/assumptions/10.md. -/
def craneEvent (k : CraneNo) (s : State) (x : CraneEventItem) : State :=
  let t := modCrane k (fun c => { c with serial := some x.serial }) s
  match sortSerial s.cranes[k].serial x.serial with
  | .duplicate => s
  | .taken => takeEvent k x t
  | .gap e => takeEvent k x (report (.crane k (.serialGap e x.serial)) t)

/-! ### The parts of a reply (R65 to R69) -/

/-- The gantry position is clamped and stored; a change of an idle crane's position calls for the evaluation of every
other crane (R66). -/
def takePosition (k : CraneNo) (pos : Nat) (s : State) : State :=
  let p := min pos (par s Config.QUAY_LEN)
  let t := modCrane k (fun c => { c with position := some p }) s
  if s.cranes[k].position ≠ some p ∧ idle s k then evaluateMany (cranes.filter fun j => decide (j ≠ k)) t else t

/-- The wind is stored and handed to the berth hold unit (R67). -/
def takeWind (k : CraneNo) (w : Nat) (s : State) : State := windReading k w (modCrane k (fun c => { c with wind := w }) s)

/-- The phase sets or clears the fault flag, with a CRANE report on change, and a clearing calls for an evaluation
(R68). -/
def takePhase (k : CraneNo) (faulted : Bool) (s : State) : State :=
  if s.cranes[k].fault = faulted then s
  else
    let t := modCrane k (fun c => { c with fault := faulted }) s
    if faulted then report (.crane k .fault) t else evaluate k (report (.crane k .faultCleared) t)

/-- UNKNOWN_MOVE is reported for a held number that is not in the pool and that the view of the previous reply did not
name in the same place (R40). "The same unknown number" is read by its number alone: a number that the view before named
while it was still in the pool, and that was freed since, raises no report. DEDUCED: notes/assumptions/8.md. -/
def reportUnknown (k : CraneNo) (before now : Option MoveNo) (s : State) : State :=
  match now with
  | none => s
  | some n => if inPool s n ∨ before = some n then s else report (.crane k (.unknownMove n)) s

/-- The reported view is stored and tested for agreement (R69, R38, R40). -/
def takeView (k : CraneNo) (v : View) (s : State) : State :=
  let old := s.cranes[k].view
  modCrane k (fun c => { c with view := some v }) s
    |> reportUnknown k (old.bind (·.active)) v.active
    |> reportUnknown k (old.bind (·.staged)) v.staged
    |> testAgreement k

/-- A crane with nothing to give is answered by ANSWER_MODE: IMMEDIATE sets the WAIT mark (R42), DEFER starts a stopped
defer timer (R43). -/
def answerNothing (k : CraneNo) (s : State) : State :=
  if par s Config.ANSWER_MODE = 0 then modCrane k (fun c => { c with waitMark := some (blockReason s k) }) s
  else modCrane k (fun c => { c with deferStart := some (c.deferStart.getD s.clock) }) s

/-- The job-wanted indication (R41, R69). -/
def takeJobWanted (k : CraneNo) (wanted : Bool) (v : View) (s : State) : State :=
  if wanted && v.active.isNone then
    let t := evaluate k (modCrane k (fun c => { c with jobWanted := true }) s)
    if t.cranes[k].active.isSome then t else answerNothing k t
  else modCrane k (fun c => { c with jobWanted := false, deferStart := none, waitMark := none }) s

/-- A CRANE_STATUS reply of crane `k` is taken whole, in the order of R65; a malformed body is discarded with
BAD_REPLY (R64). -/
def craneStatus (k : CraneNo) (body : List Byte) (s : State) : State :=
  match readCraneStatus body with
  | none => report (.crane k .badReply) s
  | some r =>
    takePosition k r.position s
      |> takeWind k r.wind
      |> takePhase k r.faulted
      |> (fun s => r.events.foldl (craneEvent k) s)
      |> takeView k r.view
      |> takeJobWanted k r.jobWanted r.view

/-- The defer timer of crane `k` has reached DEFER_LIMIT (R43). -/
def deferDue (s : State) (k : CraneNo) : Bool :=
  s.cranes[k].deferStart.any fun t => decide (par s Config.DEFER_LIMIT ≤ age s.clock t)

/-- The defer timer of crane `k` expires: it is stopped, the crane is evaluated, and a WAIT mark is set where nothing
became active (R43). -/
def deferExpires (k : CraneNo) (s : State) : State :=
  let t := evaluate k (modCrane k (fun c => { c with deferStart := none }) s)
  if t.cranes[k].active.isSome then t else modCrane k (fun c => { c with waitMark := some (blockReason t k) }) t

end Sys2Proof.Machine
end

