-- ==== Sys2Proof/Machine/GangUnit.lean ====
section
/-! DEFINITION. Gang replies (R109 to R111) and GANG_CLEAR (R117). The evaluations and the dispatch pass that a reply owes
are made once, after its signed-on indication, so that a DONE and a clear indication take the gang from IDLE to OFF
(R111). DEDUCED: notes/assumptions/32.md. -/

namespace Sys2Proof.Machine

/-- A matching DONE: the deck state changes, then the gang present is cleared, the gang becomes IDLE, and the test of the
area may queue its next job (R110). -/
def gangDone (g : GangNo) (j : Job) (seen : Bool) (s : State) : State :=
  let t :=
    setDeck j.area j.kind.ended .done s
      |> setGangPresent j.area none
      |> modGang g (fun x => { x with state := .idle, mark := .clear })
      |> report (.gang g (.done j seen))
  match j.kind with
  | .unlash => if lashDue t j.area then queueJob j.area .lash .lashQueued t else t
  | .lash => if unlashDue t j.area then queueJob j.area .unlash .unlashQueued t else t

/-- An event of gang `g` that has been taken (R110). -/
def takeGangEvent (g : GangNo) (x : GangEventItem) (s : State) : State :=
  match s.gangs[g].state, x.event with
  | .sent j, .onArea =>
    if x.area = j.area then
      report (.gang g (.onArea j.area)) (modGang g (fun y => { y with state := .working j, mark := .clear }) s)
    else report (.gang g (.eventFault x.serial x.event x.area s.gangs[g].state)) s
  | .sent j, .done =>
    if x.area = j.area then gangDone g j false s
    else report (.gang g (.eventFault x.serial x.event x.area s.gangs[g].state)) s
  | .working j, .done =>
    if x.area = j.area then gangDone g j true s
    else report (.gang g (.eventFault x.serial x.event x.area s.gangs[g].state)) s
  | _, _ => report (.gang g (.eventFault x.serial x.event x.area s.gangs[g].state)) s

/-- One event of a gang's list, sorted by its serial as R71 sorts crane events (R109). The SERIAL_GAP report of an event ahead
of the successor comes before the reports that the event itself raises. DESIGN CHOICE: notes/assumptions/10.md. -/
def gangEvent (g : GangNo) (s : State) (x : GangEventItem) : State :=
  let t := modGang g (fun y => { y with serial := some x.serial }) s
  match sortSerial s.gangs[g].serial x.serial with
  | .duplicate => s
  | .taken => takeGangEvent g x t
  | .gap e => takeGangEvent g x (report (.gang g (.serialGap e x.serial)) t)

/-- Gang `g` leaves what it has: a job goes back to the queue, and the gang becomes OFF with the given mark and report
(R111, R117). -/
def gangLeaves (g : GangNo) (m : GangMark) (r : GangReport) (s : State) : State :=
  (match s.gangs[g].state.job with
    | some j => returnJob j s
    | none => s)
    |> modGang g (fun x => { x with state := .off, mark := m })
    |> report (.gang g r)

/-- The signed-on indication of a reply from gang `g` (R111). -/
def takeSignedOn (g : GangNo) (on : Bool) (s : State) : State :=
  match s.gangs[g].state, on with
  | .off, true => report (.gang g .signedOn) (modGang g (fun x => { x with state := .idle }) s)
  | .idle, false => report (.gang g (.signedOff none)) (modGang g (fun x => { x with state := .off }) s)
  | .sent j, false => gangLeaves g .clear (.signedOff (some j)) s
  | .working j, false => gangLeaves g .clear (.signedOff (some j)) s
  | .off, false => s
  | .idle, true => s
  | .sent _, true => s
  | .working _, true => s

/-- Between `s` and `t` gang `g` has come from OFF to IDLE, or has left a job by ending or returning it: a dispatch pass
follows (R110, R111, R112). -/
def passOwed (g : GangNo) (s t : State) : Bool :=
  decide (s.gangs[g].state = .off ∧ t.gangs[g].state = .idle) ||
    (s.gangs[g].state.job.isSome && t.gangs[g].state.job.isNone)

/-- The evaluations and the dispatch pass that follow where gang `g` has been freed or signed on, or has left a job, since
`s`. -/
def gangFollow (g : GangNo) (s t : State) : State := if passOwed g s t then dispatchPass (tellRelease s t) else t

/-- A GANG_STATUS reply of gang `g` is taken whole: its events, then its signed-on indication, then the evaluations and
the dispatch pass that they owe; a malformed body is discarded with BAD_REPLY (R109, R111). -/
def gangStatus (g : GangNo) (body : List Byte) (s : State) : State :=
  match readGangStatus body with
  | none => report (.gang g .badReply) s
  | some r => gangFollow g s (takeSignedOn g r.signedOn (r.events.foldl (gangEvent g) s))

/-- The CANCEL mark is cleared at the hand-off of a valid reply whose visit had sent it (R115, R148), a reply with a
malformed body among them. DEDUCED: notes/assumptions/35.md. A CANCEL that GANG_CLEAR set anew within the visit, after the
telegram was sent, is cleared with it. DESIGN CHOICE: notes/assumptions/39.md. -/
def cancelConfirmed (g : GangNo) (sent : Bool) (s : State) : State :=
  if sent ∧ s.gangs[g].mark = .cancel then modGang g (fun x => { x with mark := .clear }) s else s

/-- GANG_CLEAR (R117). -/
def takeGangClear (body : List Byte) (s : State) : Answer :=
  match body with
  | [b] =>
    if h : b.toNat < 6 then
      let g : GangNo := ⟨b.toNat, h⟩
      if s.gangs[g].state = .off then refuse .state s
      else accept (dispatchPass (tellRelease s (gangLeaves g .cancel (.cleared s.gangs[g].state.job) s)))
    else refuse .range s
  | _ => refuse .range s

end Sys2Proof.Machine
end

