-- ==== Sys2Proof/Machine/FieldLine.lean ====
section
/-! DEFINITION. The field line controller (Chapter 9): the poll plan, visits and what they send, replies and their
judgement, station states, and the forward queue. -/

namespace Sys2Proof.Machine

/-! ### Field output bodies (TABLE 55) -/

/-- An entry of a JOBLIST: move number, kind, lane or 0xFF, legs (R39). -/
def joblistEntry (r : MoveRecord) : List Byte :=
  moveBytes r.number ++ [r.kind.code, indexOptByte (r.lane.map (·.val))] ++ r.legs.flatMap Leg.bytes

/-- The body of a JOBLIST for crane `k`: the slots as they stand, active first, where the mark is FULL, and no move where
it is EMPTY (R39). -/
def joblistBody (s : State) (k : CraneNo) : List Byte :=
  let c := s.cranes[k]
  if c.jobMark = .full then
    ((c.active.toList ++ c.staged.toList).filterMap (findIn s k)).flatMap joblistEntry
  else []

/-- The bay numbers of an area as the bay map holds them, in ascending order (R115). -/
def areaBays (s : State) (a : AreaNo) : List Nat :=
  ((s.bays.toList.filterMap fun r => r.bind fun x => if x.area = a then some x.bay else none)).insertionSort (· ≤ ·)

/-- The body of a GANG_JOB for gang `g` (R115). -/
def gangJobBody (s : State) (g : GangNo) : List Byte :=
  match s.gangs[g].mark, s.gangs[g].state.job with
  | .job, some j => [j.kind.code, byte j.area.val] ++ (areaBays s j.area).map byte
  | _, _ => [0]

/-- The body of a GATE_LIGHT for gate `u`: the signals of its two lanes as they stand (R97). -/
def gateLightBody (s : State) (u : GateNo) : List Byte :=
  [(s.lanes[evenLane u]).signal.code, (s.lanes[oddLane u]).signal.code]

/-! ### Sending in a visit (R143 to R145) -/

/-- A telegram is put on the field line in the visit under way. -/
def putOnLine (t : Telegram) (s : State) : State :=
  modField (fun f => { f with visit := f.visit.map fun v => { v with sent := v.sent ++ [t] } }) s

/-- A telegram that the QC8 builds itself carries the field sequence number, which advances by one (R143). -/
def sendField (st : Station) (kind : Byte) (body : List Byte) (s : State) : State :=
  putOnLine ⟨st.mark, kind, s.field.sequence, body⟩ s |> modField (fun f => { f with sequence := f.sequence + 1 })

/-- The pending output of a station is sent, as TABLE 47 gives (R144). -/
def sendPending (st : Station) (s : State) : State :=
  match st with
  | .crane k =>
    let t := if s.cranes[k].jobMark = .clear then s else sendField st Config.kJoblist (joblistBody s k) s
    match t.cranes[k].waitMark with
    | none => t
    | some r => sendField st Config.kWait [r.code] t |> modCrane k (fun c => { c with waitMark := none })
  | .gang g => if s.gangs[g].mark = .clear then s else sendField st Config.kGangJob (gangJobBody s g) s
  | .gate u =>
    if s.gateMarks[u] then sendField st Config.kGateLight (gateLightBody s u) s |> setGateMark u false else s

/-- The first `n` entries of the forward queue for a mark taken out of it: those taken, and those that stay. -/
def takeEntries (m : Byte) : Nat → List Telegram → List Telegram × List Telegram
  | 0, q => ([], q)
  | _, [] => ([], [])
  | n + 1, t :: q =>
    if t.mark = m then ((takeEntries m n q).map (t :: ·) id)
    else ((takeEntries m (n + 1) q).map id (t :: ·))

/-- At most two forward entries for the station are sent, unless it is SILENT (R145). -/
def sendForwards (st : Station) (s : State) : State :=
  if stationState s st = .silent then s
  else
    let (go, stay) := takeEntries st.mark 2 s.field.forward
    go.foldl (fun s t => putOnLine t s) (modField (fun f => { f with forward := stay }) s)

/-- The serial that a POLL carries: the last taken, or 0 where none has been taken and to a gate (R143). -/
def pollSerial (s : State) : Station → Byte
  | .crane k => (s.cranes[k].serial).getD 0
  | .gang g => (s.gangs[g].serial).getD 0
  | .gate _ => 0

/-- A slot of the plan is visited unless its mark is no station mark or that of an ABSENT crane (R142). -/
def visitable (s : State) (m : Byte) : Option Station :=
  match stationOfMark m with
  | some (.crane k) => if inRoster s k then some (.crane k) else none
  | other => other

/-- The positions of the plan from the next slot on, wrapping from the last slot to the first. -/
def planOrder (f : Field) : List Nat :=
  let n := f.plan.length
  (List.range n).map fun i => (f.nextSlot + i) % n

/-- The next slot to be visited, with its station (R142). -/
def nextVisit (s : State) : Option (Nat × Station) :=
  (planOrder s.field).findSome? fun i => (visitable s (s.field.plan.getD i 0)).map fun st => (i, st)

/-- A visit to the station of plan slot `i` begins: its pending output, its forward entries and the POLL (R143). The
sequence counter and the forward queue count every telegram built here as sent, also where the visit is then cut off
(R153). DESIGN CHOICE: notes/assumptions/20.md. -/
def startVisit (i : Nat) (st : Station) (s : State) : State :=
  let t :=
    modField (fun f =>
      { f with nextSlot := (i + 1) % f.plan.length, visit := some ⟨st, .sending, [], fieldSettings s.params⟩ }) s
      |> sendPending st
      |> sendForwards st
  sendField st Config.kPoll [pollSerial t st] t

/-- The line looks for a visit: none is made while one is under way, nor where every slot is passed over (R142).
DESIGN CHOICE: notes/assumptions/20.md. -/
def beginVisit (s : State) : State :=
  match s.field.visit with
  | some _ => s
  | none =>
    match nextVisit s with
    | some (i, st) => startVisit i st s
    | none => s

/-- The phase of the visit under way is written. -/
def setPhase (p : VisitPhase) (s : State) : State :=
  modField (fun f => { f with visit := f.visit.map fun v => { v with phase := p } }) s

/-- The visit under way ends. -/
def endVisit (s : State) : State := modField (fun f => { f with visit := none }) s

/-! ### Station states (R148, R150, R151) -/

/-- The blocks that rely on a station are told that it has become SILENT (R151). -/
def tellSilent (st : Station) (s : State) : State :=
  match st with
  | .crane k => testBerth (some k) (modCrane k (fun c => { c with silenceStart := some s.clock }) s)
  | .gang _ => s
  | .gate _ => s

/-- The blocks that rely on a station are told that it has become ACTIVE (R151). -/
def tellActive (st : Station) (s : State) : State :=
  match st with
  | .crane k => evaluate k (testBerth (some k) (modCrane k (fun c => { c with silenceStart := none }) s))
  | .gang g => if s.gangs[g].state = .idle then dispatchPass s else s
  | .gate u => gateReturns u s

/-- A miss: the count rises to at most 3, and at 3 an UNKNOWN or ACTIVE station becomes SILENT (R150). -/
def miss (st : Station) (s : State) : State :=
  let x := s.stations[st.index]
  let n := min 3 (x.missed + 1)
  if n = 3 ∧ x.state ≠ .silent then
    modStation st (fun _ => ⟨.silent, n⟩) s |> report (.stationSilent st x.state) |> tellSilent st
  else modStation st (fun y => { y with missed := n }) s

/-- A reply that could not be used: a miss, with a LINE report FIELD_BAD (R147 cases 2, 3 and 5). Where the miss is the third
the LINE report comes before the STATION report SILENT. DESIGN CHOICE: notes/assumptions/10.md. -/
def badReply (st : Station) (f : FieldFault) (s : State) : State := miss st (report (.line (.fieldBad st.mark f)) s)

/-- The count of a valid reply's station goes to 0, and an UNKNOWN or SILENT station becomes ACTIVE (R148). -/
def stationAnswers (st : Station) (s : State) : State :=
  let x := s.stations[st.index]
  let t := modStation st (fun _ => ⟨.active, 0⟩) s
  match x.state with
  | .active => t
  | .unknown => tellActive st t
  | .silent => tellActive st (report (.stationReturned st .silent) t)

/-- A valid reply is handed whole to its owner (R148); `sent` tells whether the visit had sent a
GANG_JOB that carries no job: the mark CANCEL is then cleared, whether or not the body is malformed (R109, R115, R148).
DEDUCED: notes/assumptions/35.md. -/
def handOff (st : Station) (sent : Bool) (body : List Byte) (s : State) : State :=
  match st with
  | .crane k => craneStatus k body s
  | .gang g => gangStatus g body (cancelConfirmed g sent s)
  | .gate u => gateStatus u body s

/-- The status kind of a station type (R147). -/
def statusKind : Station → Byte
  | .crane _ => Config.kCraneStatus
  | .gang _ => Config.kGangStatus
  | .gate _ => Config.kGateStatus

/-! ### Judgement of a reply (R147) -/

/-- A complete reply with mark `m`, from case 3 of R147 on. -/
def judgeComplete (v : Visit) (m kind sequence : Byte) (body : List Byte) (s : State) : State :=
  let st := v.station
  if m ≠ st.mark then badReply st (.wrongMark m) s
  else if Config.isPassThrough kind then report (.passUp m kind sequence body) s
  else if kind ≠ statusKind st then badReply st (.wrongKind kind) s
  else handOff st (v.sent.any fun t => decide (t.kind = Config.kGangJob ∧ t.body = [0])) body (stationAnswers st s)

/-- A reply that began with mark `m` has ended, and the visit with it (R146, R147). -/
def judgeReply (v : Visit) (m : Byte) (e : ReplyEnd) (s : State) : State :=
  match e with
  | .framing => badReply v.station .framing s
  | .parity => badReply v.station .parity s
  | .length _ => badReply v.station .length s
  | .newMark => badReply v.station .incomplete s
  | .telegram kind sequence body received =>
    if Config.bodyCapacity < body.length then badReply v.station .length s
    else if received ≠ checkOf kind sequence body then badReply v.station .check s
    else judgeComplete v m kind sequence body s

/-! ### The forward queue (R145) -/

/-- A pass-through telegram joins the forward queue, or is dropped as FORWARD_FULL where it holds 16 entries. -/
def forward (t : Telegram) (s : State) : State :=
  if s.field.forward.length < Config.forwardCapacity then modField (fun f => { f with forward := f.forward ++ [t] }) s
  else report (.line (.forwardFull t.mark)) s

/-- The entries for a mark are removed, each with a LINE report FORWARD_DISCARDED.
DEDUCED: notes/assumptions/15.md. -/
def discardForwards (m : Byte) (s : State) : State :=
  let gone := s.field.forward.filter fun t => decide (t.mark = m)
  gone.foldl (fun s _ => report (.line (.forwardDiscarded m)) s)
    (modField (fun f => { f with forward := f.forward.filter fun t => decide (t.mark ≠ m) }) s)

end Sys2Proof.Machine
end

