-- ==== Sys2Proof/Machine/UplinkPort.lean ====
section
/-! DEFINITION. The uplink port and the telegram router (Chapter 10): the receiver, the inbound queue, the transmitter,
the break, routing, and the placing of responses. -/

namespace Sys2Proof.Machine

/-! ### The receiver and the inbound queue (R157, R158) -/

/-- The telegram being collected is discarded: the receiver hunts and a LINE report names the cause and the mark
(R157). -/
def discard (f : LineFault) (m : Byte) (s : State) : State :=
  lineFault f (some m) (modUplink (fun u => { u with receiver := .hunting }) s)

/-- A complete telegram is offered to the inbound queue: it joins the tail, or is discarded with OVERFLOW (R158,
R159). -/
def offerInbound (t : Telegram) (s : State) : State :=
  if s.uplink.inbound.length < Config.inboundCapacity then
    modUplink (fun u =>
      { u with inbound := u.inbound ++ [t], ready := readyAfterJoin (u.inbound.length + 1) u.ready }) s
  else lineFault .overflow (some t.mark) s

/-- The receiver takes characters only while no break stands (R164). -/
def listening (s : State) : Option Byte :=
  if s.uplink.breaking then none
  else
    match s.uplink.receiver with
    | .hunting => none
    | .collecting m => some m

/-- A telegram being collected ends complete: its check is tested over the characters received (R155, R157). A body that
is too long, or a check that fails, is no complete telegram. DESIGN CHOICE: notes/assumptions/29.md. -/
def telegramCompletes (kind sequence : Byte) (body : List Byte) (received : BitVec 16) (s : State) : State :=
  match listening s with
  | none => s
  | some m =>
    if body.length ≤ Config.bodyCapacity ∧ received = checkOf kind sequence body then
      offerInbound ⟨m, kind, sequence, body⟩ (modUplink (fun u => { u with receiver := .hunting }) s)
    else s

/-- A telegram being collected is discarded, by its cause (R157). -/
def telegramDiscarded (c : DiscardCause) (s : State) : State :=
  match listening s with
  | none => s
  | some m =>
    match c with
    | .framing => discard .framing m s
    | .parity => if s.uplink.settings.parity = .none then s else discard .parity m s
    | .length given => if given.toNat ≤ Config.bodyCapacity then s else discard .length m s
    | .newMark x =>
      if isMark s.uplink.settings x then
        modUplink (fun u => { u with receiver := .collecting x.data }) (discard .incomplete m s)
      else s
    | .check kind sequence body received =>
      if body.length ≤ Config.bodyCapacity ∧ received ≠ checkOf kind sequence body then discard .check m s else s

/-- More than 30 bit times pass in COLLECTING with no character (R157). -/
def gapPasses (s : State) : State :=
  match listening s with
  | none => s
  | some m => discard .incomplete m s

/-- A character arrives while the receiver is HUNTING: an error-free character with mark bit 1 starts a telegram, and
any other is discarded (R157). -/
def huntedCharacter (c : RxChar) (s : State) : State :=
  if !s.uplink.breaking ∧ s.uplink.receiver = .hunting ∧ isMark s.uplink.settings c then
    modUplink (fun u => { u with receiver := .collecting c.data }) s
  else s

/-! ### Responses and the transmitter (R161, R162) -/

/-- A finished unit places its RESPONSE in the response buffer, or waits while that is full (R161). -/
def placeResponse (r : Response) (s : State) : State :=
  modUplink (fun u => if u.buffer.isNone then { u with buffer := some r } else { u with waiting := some r }) s

/-- The RESPONSE as a telegram. -/
def Response.telegram (r : Response) : Telegram := ⟨r.mark, Config.kResponse, r.sequence, r.body⟩

/-- A report as a REPORT telegram: DEVICE_MARK as it stands, and the report serial as sequence (R162). -/
def reportTelegram (s : State) (r : Report) : Telegram :=
  ⟨byte (par s Config.DEVICE_MARK), Config.kReport, r.serial, r.body⟩

/-- The report at the head of the order is put in the transmitter's hand. -/
def startReport (r : Report) (s : State) : State :=
  modReports (fun q => { q with queue := takeInHand q.queue r.level }) s
    |> modUplink (fun u => { u with sending := some (.report (reportTelegram s r)) })

/-- The idle transmitter chooses its next telegram (R162): one cut off by a break, then the RESPONSE, then, while no
RESPONSE has yet to be placed, the next report. -/
def chooseTelegram (s : State) : State :=
  match s.uplink.cutOff with
  | some x => modUplink (fun u => { u with sending := some x, cutOff := none }) s
  | none =>
    match s.uplink.buffer with
    | some r => modUplink (fun u => { u with sending := some (.response r.telegram) }) s
    | none =>
      if s.uplink.waiting.isSome then s
      else
        match nextReport s.reports.queue with
        | some r => startReport r s
        | none => s

def transmitStart (s : State) : State :=
  if s.uplink.breaking ∨ s.uplink.sending.isSome then s else chooseTelegram s

/-- New uplink settings take effect, and a telegram being collected is discarded without a report (R165). -/
def applySettings (ls : Option LineSettings) (u : Uplink) : Uplink :=
  match ls with
  | some x => { u with settings := x, receiver := .hunting }
  | none => u

/-- The last character of a RESPONSE has been sent: the buffer empties, a RESPONSE that waits takes its place, and the
router goes on (R161, R165). -/
def responseSent (s : State) : State :=
  match s.uplink.breaking, s.uplink.sending with
  | false, some (.response _) =>
    modUplink (fun u =>
      applySettings (u.buffer.bind (·.settings)) { u with sending := none, buffer := u.waiting, waiting := none }) s
  | _, _ => s

/-- The last character of a REPORT has been sent: its report leaves the queue (R162, R168). -/
def reportSent (s : State) : State :=
  match s.uplink.breaking, s.uplink.sending with
  | false, some (.report _) =>
    modReports (fun q => { q with queue := q.queue.filter fun r => !r.inHand }) s
      |> modUplink (fun u => { u with sending := none })
  | _, _ => s

/-! ### The break (R164) -/

/-- What the transmitter has in hand and must send again after a break: a REPORT whose report RESET_COORD has emptied
from the queue is not sent again (R176). DEDUCED: notes/assumptions/19.md. -/
def cutOffAt (s : State) : Option Sending :=
  match s.uplink.sending with
  | some (.report t) => if s.reports.queue.any (·.inHand) then some (.report t) else none
  | some (.response t) => some (.response t)
  | none => s.uplink.cutOff

/-- A break is recognised (R164). -/
def breakBegins (s : State) : State :=
  if s.uplink.breaking then s
  else
    report .restartBreak
      (modUplink (fun u =>
        { u with
          receiver := .hunting
          inbound := []
          ready := true
          latches := Vector.replicate 6 false
          sending := none
          cutOff := cutOffAt s
          breaking := true }) s)

/-- The line returns to marking (R164). -/
def breakEnds (s : State) : State := modUplink (fun u => { u with breaking := false }) s

/-! ### Routing (R160, TABLE 58) -/

/-- Where the router sends a telegram. -/
inductive Route where
  | add (k : CraneNo)
  | amend (k : CraneNo)
  | cancel (k : CraneNo)
  /-- to the directive unit; the kind that the body names, if it names one of the six -/
  | directive (k : CraneNo) (d : Option DirectiveKind)
  /-- to the management unit, with the kind -/
  | management (kind : Byte)
  | forward
  | unknown
  | unused
  deriving DecidableEq, Repr

/-- The directive kind that a DIRECTIVE body names. -/
def directiveNamed (body : List Byte) : Option DirectiveKind := body[1]?.bind DirectiveKind.ofCode

/-- The route of a telegram, by its mark and kind as the part stands (TABLE 58). -/
def route (s : State) (t : Telegram) : Route :=
  if t.mark.toNat = par s Config.DEVICE_MARK then
    if 0x20 ≤ t.kind.toNat ∧ t.kind.toNat ≤ 0x2D then .management t.kind else .unknown
  else
    match stationOfMark t.mark with
    | none => .unused
    | some (.crane k) =>
      if t.kind = Config.kOrderAdd then .add k
      else if t.kind = Config.kOrderAmend then .amend k
      else if t.kind = Config.kOrderCancel then .cancel k
      else if t.kind = Config.kDirective then .directive k (directiveNamed t.body)
      else if Config.isPassThrough t.kind then (if inRoster s k then .forward else .unused)
      else .unknown
    | some _ => if Config.isPassThrough t.kind then .forward else .unknown

/-- The head of the inbound queue, where the router may take it: no RESPONSE of an earlier telegram is waiting to be
placed (R161). -/
def headTelegram (s : State) : Option Telegram :=
  if s.uplink.waiting.isSome then none else s.uplink.inbound.head?

/-- The head telegram leaves the inbound queue (R158, R159). -/
def popInbound (s : State) : State :=
  modUplink (fun u =>
    { u with inbound := u.inbound.tail, ready := readyAfterLeave (u.inbound.length - 1) u.ready }) s

/-- The RESPONSE to telegram `t` that a unit's answer makes (R161). -/
def respond (t : Telegram) (a : Answer) : State :=
  placeResponse ⟨t.mark, t.sequence, t.kind, a.result, a.data, a.settings⟩ a.state

/-- The router takes the head telegram where its route is one that this command takes: `unit` answers for it and its
RESPONSE is placed (R160). A head that goes elsewhere, or none, leaves the part as it is. -/
def takeHead (unit : Route → Telegram → State → Option Answer) (s : State) : State :=
  match headTelegram s with
  | none => s
  | some t =>
    match unit (route s t) t (popInbound s) with
    | some a => respond t a
    | none => s

/-- The router disposes of the head telegram without a RESPONSE where its route is one that this command takes. -/
def dropHead (act : Route → Telegram → State → Option State) (s : State) : State :=
  match headTelegram s with
  | none => s
  | some t => (act (route s t) t (popInbound s)).getD s

end Sys2Proof.Machine
end

