-- ==== Sys2Proof/Machine/Management.lean ====
section
/-! DEFINITION. The management unit (Chapter 11): IDENT, STATUS, READ, SET_PARAM, the LOAD telegrams, ACK_SUMMARY, the
berth telegrams and RESET_COORD. A telegram is carried out whole or refused whole (R171). -/

namespace Sys2Proof.Machine

/-- An accepted telegram whose RESPONSE carries data (R161). -/
def answerData (data : List Byte) (s : State) : Answer := ⟨s, .accepted, data, none⟩

/-- A telegram whose body must be empty is refused RANGE where it is not (R171). -/
def withEmptyBody (act : State → Answer) (body : List Byte) (s : State) : Answer :=
  if body = [] then act s else refuse .range s

/-! ### IDENT and STATUS (TABLE 61) -/

/-- The data of IDENT (R171, TABLE 61). -/
def identData : List Byte :=
  be16 Config.vendorCode ++ be16 Config.partCode ++
    [Config.revision, 8, 6, 8, 16, 64, 32, Config.pollCapacity, Config.reportCapacity, Config.forwardCapacity,
      Config.inboundCapacity, Config.queueCapacity].map byte ++ be16 Config.poolCapacity

/-- Every station in the order of the station records (R173). -/
def stationList : List Station :=
  cranes.map .crane ++ gangs.map .gang ++ (List.finRange 8).map .gate

/-- The number of lane slots whose state has this code (R100). -/
def slotCount (s : State) (c : Byte) : Nat := (lanes.filter fun l => decide ((s.lanes[l]).slot.code = c)).length

/-- The number of slots whose stray flag is set (R100). -/
def strayCount (s : State) : Nat := (lanes.filter fun l => decide (s.lanes[l].slot = .free true)).length

/-- The number of queued jobs of a kind (R108). -/
def jobCount (s : State) (k : JobKind) : Nat := (s.jobs.filter fun j => decide (j.kind = k)).length

/-- A row of flags as a mask, flag 0 in bit 0. -/
def maskOf {n : Nat} (v : Vector Bool n) : Nat := bitsToNat v.toList

/-- The data of STATUS (R172, TABLE 61). -/
def statusData (s : State) : List Byte :=
  [s.berth.state.code, s.berth.causes.code, flagByte s.berth.closed, flagByte (calm s)] ++
    be16 (maskOf s.reports.seen) ++ be16 (maskOf s.reports.lost) ++ [flagByte (attention s)] ++
    be16 (pool s).length ++ cranes.map (fun k => byte (s.queues[k]).length) ++
    cranes.map (fun k => (s.cranes[k]).mode.code) ++ stationList.map (fun st => (stationState s st).code) ++
    (List.range 5).map (fun i => byte (slotCount s (byte i))) ++
    [byte (strayCount s), byte (jobCount s .unlash), byte (jobCount s .lash), byte (maskOf s.uplink.latches),
      byte s.reports.queue.length, byte s.field.forward.length] ++ clockBytes s.clock

/-- IDENT (R171). -/
def takeIdent (body : List Byte) (s : State) : Answer := withEmptyBody (answerData identData) body s

/-- STATUS (R172). -/
def takeStatus (body : List Byte) (s : State) : Answer := withEmptyBody (fun s => answerData (statusData s) s) body s

/-! ### READ (R173, TABLE 64) -/

/-- Table 1: a move record at a position of crane `k`'s queue. -/
def readMove (s : State) (k : CraneNo) (r : MoveRecord) : List Byte :=
  moveBytes r.number ++
    [byte k.val, byte ((s.queues[k]).findIdx fun x => decide (x.number = r.number)), r.kind.code, r.state.code,
      ((pendingCause s r).map BlockReason.code).getD 0] ++
    moveOptBytes r.afterMove ++ [indexOptByte (r.lane.map (·.val)), flagByte r.called] ++
    clockOptBytes r.readyTime ++ clockOptBytes r.activation ++
    [(r.progress.map fun p => p.next.code).getD 0,
      byte (bitsToNat [r.progress.any (·.lift1), r.progress.any (·.lift2)]), flagByte r.holdOverlap,
      flagByte r.abandoned] ++ r.legs.flatMap Leg.bytes

/-- Table 2: a crane context. -/
def readCrane (s : State) (k : CraneNo) : List Byte :=
  let c := s.cranes[k]
  [c.mode.code, flagByte c.held, flagByte c.fault, (stationState s (.crane k)).code] ++
    moveOptBytes c.active ++ moveOptBytes c.staged ++ wordOptBytes c.position ++ be16 c.wind ++
    wordOptBytes (c.serial.map (·.toNat)) ++ [flagByte c.view.isSome] ++
    moveOptBytes (c.view.bind (·.active)) ++ moveOptBytes (c.view.bind (·.staged)) ++ [flagByte c.jobWanted] ++
    clockOptBytes c.deferStart ++ clockOptBytes c.lastCompletion ++
    [c.jobMark.code, (c.waitMark.map BlockReason.code).getD 0, flagByte c.directive.isSome,
      (c.directive.map (·.number)).getD 0, (c.directive.map fun d => d.kind.code).getD 0] ++
    moveOptBytes (c.directive.bind (·.move)) ++ clockBytes ((c.directive.map (·.received)).getD 0) ++
    clockOptBytes c.silenceStart

/-- Table 3: a lane slot. -/
def readLane (x : Lane) : List Byte :=
  [x.slot.code] ++ moveOptBytes x.slot.move ++ [flagByte (decide (x.slot = .free true)), flagByte x.present] ++
    clockOptBytes x.candidate ++
    [x.signal.code, indexOptByte (x.owner.map (·.val)), indexOptByte (x.request.map (·.crane.val))] ++
    moveOptBytes (x.request.map (·.move))

/-- Table 4: an area, with its queued job and that job's place. -/
def readArea (s : State) (a : AreaNo) : List Byte :=
  let x := s.areas[a]
  let i := s.jobs.findIdx fun j => decide (j.area = a)
  [x.deck.code, flagByte x.lashRequired, indexOptByte (x.gang.map (·.val)),
    ((s.jobs[i]?).map fun j => j.kind.code).getD 0, indexOptByte ((s.jobs[i]?).map fun _ => i)]

/-- Table 5: a gang. -/
def readGang (s : State) (g : GangNo) : List Byte :=
  let x := s.gangs[g]
  [x.state.code, (stationState s (.gang g)).code, indexOptByte (x.state.job.map (·.area.val)),
    (x.state.job.map fun j => j.kind.code).getD 0] ++ wordOptBytes (x.serial.map (·.toNat)) ++ [x.mark.code]

/-- Table 6: a bay map row; an empty row has bay number 0, and its position and area are absent (R156).
DESIGN CHOICE: notes/assumptions/16.md. -/
def readBay : Option BayRow → List Byte
  | some x => [byte x.bay] ++ be16 x.position ++ [byte x.area.val]
  | none => [0] ++ wordOptBytes none ++ [indexOptByte none]

/-- Table 7: a lane map row. -/
def readLaneRow (x : Lane) : List Byte := [x.use.code] ++ be16 x.travel ++ [flagByte x.activeLow, byte x.settle]

/-- Table 8: a roster entry. -/
def readRoster : Option RosterEntry → List Byte
  | some e =>
    [1] ++ be16 e.parking ++ [byte e.homeLanes.length] ++
      (e.homeLanes.map (fun l : LaneNo => byte l.val) ++ List.replicate 3 0xFF).take 3
  | none => [0, 0, 0, 0, 0xFF, 0xFF, 0xFF]

/-- Table 10: a station record. -/
def readStation (x : StationRecord) : List Byte := [x.state.code, byte x.missed]

/-- Table 12: a cycle entry (R46, R52). -/
def readCycle (s : State) (k : CraneNo) : List Byte :=
  be32 s.cycles[k].single ++ be32 s.cycles[k].dual ++ be16 (expected s k .discharge) ++ be16 (expected s k .dual)

/-- An index within a table of `n` rows; one outside it is refused RANGE (R173). -/
def within (n i : Nat) (read : Fin n → List Byte) (s : State) : Answer :=
  if h : i < n then answerData (read ⟨i, h⟩) s else refuse .range s

/-- A READ of table `t` at index `i` (R173). -/
def readTable (t i : Nat) (s : State) : Answer :=
  match t with
  | 1 =>
    match findMove s (BitVec.ofNat 16 i) with
    | some (k, r) => if i = 0 then refuse .unknown s else answerData (readMove s k r) s
    | none => refuse .unknown s
  | 2 => within 8 i (readCrane s) s
  | 3 => within 16 i (fun l => readLane s.lanes[l]) s
  | 4 => within 32 i (readArea s) s
  | 5 => within 6 i (readGang s) s
  | 6 => within 64 i (fun r => readBay s.bays[r]) s
  | 7 => within 16 i (fun l => readLaneRow s.lanes[l]) s
  | 8 => within 8 i (fun k => readRoster s.roster[k]) s
  | 9 => within 32 i (fun p => [s.field.plan.getD p.val 0]) s
  | 10 => within 22 i (fun x => readStation s.stations[x]) s
  | 11 => within 40 i (fun p => be16 (par s p)) s
  | 12 => within 8 i (readCycle s) s
  | _ => refuse .range s

/-- READ (R173). -/
def takeRead (body : List Byte) (s : State) : Answer :=
  match body with
  | [t, hi, lo] => readTable t.toNat (of16 hi lo) s
  | _ => refuse .range s

/-! ### SET_PARAM (R174) -/

/-- The parameters whose values are codes: a value that is none of them is refused (R174 test 2). -/
def coded (i : Config.Param) : Bool :=
  decide (i = Config.ANSWER_MODE ∨ i = Config.UPLINK_PARITY ∨ i = Config.FIELD_PARITY)

/-- The value written for a value given: clamped into the parameter's range, then by the dependent limits (R174). -/
def clampedValue (s : State) (i : Config.Param) (v : Nat) : Nat :=
  let c := clamp Config.paramTable[i].low Config.paramTable[i].high v
  if i = Config.CYCLE_MIN then min c (par s Config.CYCLE_MAX)
  else if i = Config.CYCLE_MAX then max c (par s Config.CYCLE_MIN)
  else if i = Config.WIND_RESUME then min c (par s Config.WIND_STOP - 10)
  else c

/-- The tests of SET_PARAM of a parameter that exists: `none` where they pass (R174 tests 2 and 3). -/
def paramRefusal (s : State) (i : Config.Param) (v : Nat) : Option Result :=
  if coded i ∧ ¬(Config.paramTable[i].low ≤ v ∧ v ≤ Config.paramTable[i].high) then some .range
  else if i = Config.SEP ∧ clampedValue s i v ≠ par s Config.SEP ∧ anyBusy s then some .collision
  else none

/-- Every stored last position above QUAY_LEN is set to QUAY_LEN (R26). -/
def lowerPositions (s : State) : State :=
  { s with cranes := Vector.ofFn fun k =>
      { s.cranes[k] with position := s.cranes[k].position.map fun p => min p (par s Config.QUAY_LEN) } }

/-- Every smoothed time of every crane is clamped to 16 times CYCLE_MIN and CYCLE_MAX (R51). -/
def clampCycles (s : State) : State :=
  let f := clamp (16 * par s Config.CYCLE_MIN) (16 * par s Config.CYCLE_MAX)
  { s with cycles := Vector.ofFn fun k => ⟨f s.cycles[k].single, f s.cycles[k].dual⟩ }

/-- The unlash tests for the areas of the leading records of every queue (R104): cranes in quay order, records in queue
order, areas in point order. DESIGN CHOICE: notes/assumptions/33.md. -/
def leadTests (s : State) : State := (cranes.flatMap fun k => (leading s k).flatMap (deckAreas s)).foldl unlashTest s

/-- The effects of a written value on other blocks (R174); `old` is the value that stood before. -/
def paramEffects (i : Config.Param) (old : Nat) (s : State) : State :=
  if i = Config.QUAY_LEN then lowerPositions s
  else if i = Config.LASH_LEAD then (if par s i = old then s else leadTests s)
  else if i = Config.CYCLE_MIN ∨ i = Config.CYCLE_MAX then clampCycles s
  else if i = Config.WIND_STOP then
    setParam Config.WIND_RESUME (min (par s Config.WIND_RESUME) (par s Config.WIND_STOP - 10)) s
  else s

/-- A parameter written with the value that R174 gives, and its effects. -/
def writeParam (i : Config.Param) (v : Nat) (s : State) : State :=
  paramEffects i (par s i) (setParam i (clampedValue s i v) s)

/-- The uplink settings that a SET_PARAM leaves to take effect after its RESPONSE: where it changes them (R165). -/
def settingsChanged (s t : State) : Option LineSettings :=
  if uplinkSettings t.params = uplinkSettings s.params then none else some (uplinkSettings t.params)

/-- SET_PARAM (R174). -/
def takeSetParam (body : List Byte) (s : State) : Answer :=
  match body with
  | [n, hi, lo] =>
    if h : n.toNat < 40 then
      let i : Config.Param := ⟨n.toNat, h⟩
      let v := of16 hi lo
      match paramRefusal s i v with
      | some r => refuse r s
      | none =>
        let t := writeParam i v s
        ⟨t, if clampedValue s i v = v then .accepted else .clamped, [], settingsChanged s t⟩
    else refuse .range s
  | _ => refuse .range s

/-! ### LOAD telegrams (R175) -/

/-- The two bytes of a row at position `i`. -/
def cell16 (row : List Byte) (i : Nat) : Nat := 256 * cell row i + cell row (i + 1)

/-- A LOAD of rows of `n + 1` bytes: an index named twice is refused, the first row that fails its tests gives the
refusal of the whole, and otherwise the rows are written in body order (R175). -/
def load (n : Nat) (test : State → List (List Byte) → List Byte → Option Result)
    (write : List Byte → State → State) (body : List Byte) (s : State) : Answer :=
  match rowsOf n body with
  | none => refuse .range s
  | some rows =>
    if ¬ (rows.map fun r => cell r 0).Nodup then refuse .range s
    else
      match rows.findSome? (test s rows) with
      | some r => refuse r s
      | none => accept (rows.foldl (fun s r => write r s) s)

/-! #### LOAD_BAYS (R101) -/

/-- The bay number at row `i` of the bay map as the whole telegram would leave it; 0 for an empty row. -/
def bayAfter (s : State) (rows : List (List Byte)) (i : Fin 64) : Nat :=
  match rows.find? fun r => decide (cell r 0 = i.val) with
  | some r => cell r 1
  | none => (s.bays[i].map (·.bay)).getD 0

/-- Another row would carry the bay number of this row. -/
def bayTwice (s : State) (rows : List (List Byte)) (r : List Byte) : Bool :=
  decide (cell r 1 ≠ 0) &&
    (List.finRange 64).any fun i => decide (i.val ≠ cell r 0 ∧ bayAfter s rows i = cell r 1)

/-- A move of the pool names the bay. -/
def bayNamed (s : State) (b : Nat) : Bool := (pool s).any fun m => m.points.any fun p => decide (p.1 = b)

def bayTest (s : State) (rows : List (List Byte)) (r : List Byte) : Option Result :=
  if h : cell r 0 < 64 then
    if 120 < cell r 1 ∨ bayTwice s rows r ∨ par s Config.QUAY_LEN < cell16 r 2 ∨ 31 < cell r 4 then some .range
    else if (s.bays[(⟨cell r 0, h⟩ : Fin 64)]).any fun x => bayNamed s x.bay then some .collision
    else none
  else some .range

def writeBay (r : List Byte) (s : State) : State :=
  if h : cell r 0 < 64 ∧ cell r 4 < 32 then
    setBay ⟨cell r 0, h.1⟩ (if cell r 1 = 0 then none else some ⟨cell r 1, cell16 r 2, ⟨cell r 4, h.2⟩⟩) s
  else s

/-! #### LOAD_AREAS (R102) -/

/-- The deck states that LOAD_AREAS may write. -/
def loadedDeck : Nat → Option Deck
  | 0 => some .lashed
  | 3 => some .opened
  | _ => none

/-- A move of the pool names the area by one of its points. -/
def areaNamed (s : State) (a : AreaNo) : Bool := (pool s).any fun m => decide (a ∈ pointAreas s m)

def areaTest (s : State) (_ : List (List Byte)) (r : List Byte) : Option Result :=
  if h : cell r 0 < 32 then
    if (loadedDeck (cell r 1)).isNone ∨ 1 < cell r 2 then some .range
    else if areaNamed s ⟨cell r 0, h⟩ ∨ (s.areas[(⟨cell r 0, h⟩ : AreaNo)]).gang.isSome then some .collision
    else none
  else some .range

/-- An area written by LOAD_AREAS: its queued job is removed, the flag and the deck state are written, and the lash test
is made where it stands OPEN with its flag set (R102); the dispatch pass of a job it creates raises its GANG report.
DEDUCED: notes/assumptions/15.md. -/
def loadArea (a : AreaNo) (d : Deck) (flag : Bool) (s : State) : State :=
  let t := modArea a (fun x => { x with lashRequired := flag }) (setJobs (s.jobs.filter fun j => decide (j.area ≠ a)) s)
  let u := if t.areas[a].deck = d then t else setDeck a d .loaded t
  if d = .opened ∧ flag then lashTest u a else u

def writeArea (r : List Byte) (s : State) : State :=
  if h : cell r 0 < 32 then
    match loadedDeck (cell r 1) with
    | some d => loadArea ⟨cell r 0, h⟩ d (decide (cell r 2 = 1)) s
    | none => s
  else s

/-! #### LOAD_LANES (R82, R83) -/

/-- A roster lists the lane as a home lane, and the row would give it another use than HOME of that crane (R83). -/
def useForbidden (s : State) (l : LaneNo) (u : LaneUse) : Bool :=
  cranes.any fun k => (s.roster[k].any fun e => decide (l ∈ e.homeLanes)) && decide (u ≠ .home k)

def laneTest (s : State) (_ : List (List Byte)) (r : List Byte) : Option Result :=
  if h : cell r 0 < 16 then
    match LaneUse.ofCode (byte (cell r 1)) with
    | none => some .range
    | some u =>
      if 3000 < cell16 r 2 ∨ 1 < cell r 4 ∨ ¬(1 ≤ cell r 5 ∧ cell r 5 ≤ 50) ∨ useForbidden s ⟨cell r 0, h⟩ u then
        some .range
      else if (s.lanes[(⟨cell r 0, h⟩ : LaneNo)]).slot.code ≠ 0 then some .collision
      else none
  else some .range

/-- A lane row written: the slot and the filtered presence stay, and the candidate, owner and request go (R82). -/
def writeLane (r : List Byte) (s : State) : State :=
  if h : cell r 0 < 16 then
    match LaneUse.ofCode (byte (cell r 1)) with
    | none => s
    | some u =>
      modLane ⟨cell r 0, h⟩ (fun x =>
        { x with
          use := u
          travel := cell16 r 2
          activeLow := decide (cell r 4 = 1)
          settle := cell r 5
          candidate := none
          owner := none
          request := none }) s
  else s

/-! #### LOAD_ROSTER (R25, R46, R83, R119, R141, R145, R153) -/

/-- The three lane numbers of a roster row. -/
def rowLanes (r : List Byte) : List Nat := [cell r 5, cell r 6, cell r 7]

/-- The home lanes that a roster row lists: as many of its lane numbers as its count gives (R83). -/
def listedLanes (r : List Byte) : List LaneNo :=
  ((rowLanes r).take (cell r 4)).filterMap fun n => if h : n < 16 then some ⟨n, h⟩ else none

/-- The home lane tests of a row that enters or replaces crane `k` (R83). -/
def homeLanesValid (s : State) (k : CraneNo) (r : List Byte) : Bool :=
  let ls := (rowLanes r).take (cell r 4)
  decide (cell r 4 ≤ 3) && decide (((rowLanes r).filter fun n => decide (n ≠ 0xFF)).length = cell r 4) &&
    decide ls.Nodup && decide ((listedLanes r).length = ls.length) &&
    (listedLanes r).all fun l => decide (s.lanes[l].use = .home k)

def rosterTest (s : State) (_ : List (List Byte)) (r : List Byte) : Option Result :=
  if h : cell r 0 < 8 then
    let k : CraneNo := ⟨cell r 0, h⟩
    if 1 < cell r 1 ∨ par s Config.QUAY_LEN < cell16 r 2 ∨ (cell r 1 = 1 ∧ !homeLanesValid s k r) then some .range
    else if s.queues[k] ≠ [] then some .collision
    else none
  else some .range

/-- Crane `k`'s station record becomes UNKNOWN with a missed count of 0 (R141). -/
def forgetStation (k : CraneNo) (s : State) : State := modStation (.crane k) (fun _ => ⟨.unknown, 0⟩) s

/-- Crane `k` enters the roster (R25, R46, R127, R141). -/
def enterCrane (k : CraneNo) (e : RosterEntry) (s : State) : State :=
  setRoster k (some e) s
    |> modCrane k (fun _ => { Crane.powerOn with mode := .inService, position := some e.parking })
    |> setCycle k (initialCycle s.params)
    |> forgetStation k
    |> testBerth (some k)

/-- The roster entry of crane `k` is replaced (R25). -/
def replaceCrane (k : CraneNo) (e : RosterEntry) (s : State) : State :=
  setRoster k (some e) s
    |> modCrane k (fun c =>
        { c with position := if stationState s (.crane k) = .unknown then some e.parking else c.position })

/-- Crane `k`'s ownership of every shared lane becomes none, with any request against it; its own requests are withdrawn
(R83, R90). -/
def dropOwnership (k : CraneNo) (s : State) : State :=
  mapLanes (fun x =>
    if x.owner = some k then { x with owner := none, request := none }
    else { x with request := x.request.filter fun q => decide (q.crane ≠ k) }) s

/-- The visit under way ends where it is to this station (R153). -/
def endVisitTo (st : Station) (s : State) : State :=
  if s.field.visit.any fun v => decide (v.station = st) then endVisit s else s

/-- Crane `k` leaves the roster; the removal of an ABSENT crane changes nothing (R175). A BERTH report of the test of the
berth state comes before the LINE reports of the forward entries. DESIGN CHOICE: notes/assumptions/10.md. -/
def removeCrane (k : CraneNo) (s : State) : State :=
  if inRoster s k then
    setRoster k none s
      |> modCrane k (fun _ => Crane.powerOn)
      |> forgetStation k
      |> dropOwnership k
      |> endVisitTo (.crane k)
      |> testBerth (some k)
      |> discardForwards (Station.crane k).mark
  else s

def writeRoster (r : List Byte) (s : State) : State :=
  if h : cell r 0 < 8 then
    let k : CraneNo := ⟨cell r 0, h⟩
    if cell r 1 = 0 then removeCrane k s
    else if inRoster s k then replaceCrane k ⟨cell16 r 2, listedLanes r⟩ s
    else enterCrane k ⟨cell16 r 2, listedLanes r⟩ s
  else s

/-! #### The five LOAD telegrams -/

/-- LOAD_ROSTER (R175). -/
def takeLoadRoster (body : List Byte) (s : State) : Answer := load 7 rosterTest writeRoster body s

/-- LOAD_LANES (R175, R82). -/
def takeLoadLanes (body : List Byte) (s : State) : Answer := load 5 laneTest writeLane body s

/-- LOAD_BAYS (R175, R101). -/
def takeLoadBays (body : List Byte) (s : State) : Answer := load 4 bayTest writeBay body s

/-- LOAD_AREAS (R175, R102), and the evaluation of any crane with a move made READY by it (R14, R28).
DEDUCED: notes/assumptions/17.md. -/
def takeLoadAreas (body : List Byte) (s : State) : Answer :=
  let a := load 2 areaTest writeArea body s
  { a with state := tellRelease s a.state }

/-- LOAD_POLLPLAN replaces the whole plan, and the next visit is sought from its first slot, whether or not a visit is
under way (R142, R175). DESIGN CHOICE: notes/assumptions/36.md. -/
def takeLoadPollplan (body : List Byte) (s : State) : Answer :=
  if Config.pollCapacity < body.length then refuse .range s
  else accept (modField (fun f => { f with plan := body, nextSlot := 0 }) s)

/-! ### ACK_SUMMARY and the berth telegrams (R169, R134, R138) -/

/-- The seen and lost flags of the classes that a mask names are cleared (R169). -/
def clearSummary (mask : Nat) (s : State) : State :=
  modReports (fun q =>
    { q with
      seen := Vector.ofFn fun c => q.seen[c] && !mask.testBit c.val
      lost := Vector.ofFn fun c => q.lost[c] && !mask.testBit c.val }) s

/-- ACK_SUMMARY (R169). -/
def takeAckSummary (body : List Byte) (s : State) : Answer :=
  match body with
  | [hi, lo] => if 0x4000 ≤ of16 hi lo then refuse .range s else accept (clearSummary (of16 hi lo) s)
  | _ => refuse .range s

/-- HOLD_BERTH (R134). -/
def takeHoldBerth (body : List Byte) (s : State) : Answer := withEmptyBody (fun s => accept (addCause .command s)) body s

/-- RELEASE_BERTH (R138). -/
def takeReleaseBerth (body : List Byte) (s : State) : Answer :=
  withEmptyBody (fun s =>
    if s.berth.state = .running then accept s
    else if !s.berth.closed then refuse .contact s
    else if !calm s then refuse .wind s
    else accept (releaseHold s)) body s

/-! ### RESET_COORD (R176) -/

/-- A crane context after RESET_COORD: mode, last position and last wind kept (TABLE 14). The JOBLIST mark is clear, as TABLE
14 and R176 give it, though R38 tests agreement at each change of the slots by TABLE 16, which names RESET_COORD, and a view
that is not reported gives FULL. DEDUCED: notes/assumptions/41.md. -/
def Crane.reset (c : Crane) : Crane := { Crane.powerOn with mode := c.mode, position := c.position, wind := c.wind }

/-- A lane after RESET_COORD: its slot FREE with its stray flag from the filtered presence, owner and request none
(R99). -/
def Lane.reset (x : Lane) : Lane := { x with slot := .free x.present, owner := none, request := none }

/-- An area after RESET_COORD: a wait state goes back (R118), as its job leaves the queue in the same step (R108), against
the sentence of R23 that neither kind of reset changes the area table. DEDUCED: notes/assumptions/37.md. -/
def Area.reset (x : Area) : Area :=
  { x with deck := match x.deck with
      | .unlashWait => .lashed
      | .lashWait => .opened
      | d => d }

/-- A gang after RESET_COORD (R118). -/
def Gang.reset (x : Gang) : Gang :=
  { x with serial := none, mark := match x.state with
      | .sent _ => .job
      | .off | .idle | .working _ => .clear }

/-- The telegram that a break cut off is not sent again where its report has been emptied from the queue (R176). -/
def Sending.afterReset : Sending → Option Sending
  | .response t => some (.response t)
  | .report _ => none

/-- The moves emptied: every crane queue, every crane context with its staged and active slots, and every lane slot. The
records go with no lash test and no withdrawal of a job, and neither the bay map nor the area table changes (R23). -/
def emptyMoves (s : State) : State :=
  { s with
    queues := Vector.replicate 8 []
    cranes := Vector.ofFn fun k => (s.cranes[k]).reset
    lanes := Vector.ofFn fun l => (s.lanes[l]).reset }

/-- The lashing table and the gang dispatcher at RESET_COORD: the job queue emptied, and each area and gang as R118 gives
it. -/
def resetLashing (s : State) : State :=
  { s with
    areas := Vector.ofFn fun a => (s.areas[a]).reset
    jobs := []
    gangs := Vector.ofFn fun g => (s.gangs[g]).reset }

/-- The coordinator emptied, before its RESTART report (R176). -/
def emptied (s : State) : State :=
  let t := resetLashing (emptyMoves s)
  { t with
    gateMarks := Vector.replicate 8 true
    berth := { s.berth with state := .held, causes := ⟨false, false, true⟩ }
    stations := Vector.replicate 22 ⟨.unknown, 0⟩
    field := { s.field with nextSlot := 0, forward := [], visit := none }
    reports := { s.reports with queue := [] }
    uplink := { s.uplink with cutOff := s.uplink.cutOff.bind Sending.afterReset } }

/-- RESET_COORD (R176). -/
def takeResetCoord (body : List Byte) (s : State) : Answer :=
  withEmptyBody (fun s => accept (report .restartCoord (emptied s))) body s

end Sys2Proof.Machine
end

