-- ==== Sys2Proof/Machine/Inputs.lean ====
section
/-! DEFINITION. The commands that come from the part's own inputs and clock: power, reset, the stop contact, and the
events that fall due as the quay clock counts. An event that is not due leaves the part as it is
(notes/assumptions/3.md). -/

namespace Sys2Proof.Machine

/-- While the reset input is asserted it holds the part in its power-on state, and no event reaches a block (R177).
DESIGN CHOICE: notes/assumptions/3.md. -/
def awake (f : State → State) (s : State) : State := if s.resetAsserted then s else f s

/-- POWER_ON: every table, queue, line and parameter takes its power-on value (R177). The levels at the two input pins
are not the part's to set. -/
def execPowerOn (s : State) : Host.Outcome State Fault Refusal :=
  .next (State.powerOn s.pending s.freeCount s.resetAsserted s.berth.rawClosed)

/-- RESET_ASSERTED: the part is held in its power-on state (R177). -/
def execResetAsserted (s : State) : Host.Outcome State Fault Refusal :=
  .next (State.powerOn s.pending s.freeCount true s.berth.rawClosed)

/-- The reset input is negated: the quay clock counts from 0, and the smoothed times are set (R45, R46). -/
def leaveReset (s : State) : State :=
  { s with
    resetAsserted := false
    clock := 0
    cycles := Vector.replicate 8 (initialCycle s.params) }

/-- RESET_NEGATED (R45). -/
def execResetNegated (s : State) : Host.Outcome State Fault Refusal :=
  .next (if s.resetAsserted then leaveReset s else s)

/-- STOP_CONTACT_CHANGE: the raw level at the stop contact input becomes `closed` (R132). -/
def execStopContactChange (closed : Bool) (s : State) : Host.Outcome State Fault Refusal :=
  .next (contactChanges closed s)

/-- CONTACT_DEBOUNCED (R132). -/
def execContactDebounced (s : State) : Host.Outcome State Fault Refusal :=
  .next (awake (fun s => if contactDue s then contactSettles s else s) s)

/-- A periodic call check falls at each multiple of 10 of the quay clock, from 10 on (R56).
DEDUCED: notes/assumptions/3.md. -/
def periodicDue (s : State) : Bool := decide (s.clock ≠ 0 ∧ s.clock.toNat % 10 = 0)

/-- PERIODIC_CALL_CHECK of crane `k` (R56). -/
def execPeriodicCallCheck (k : CraneNo) (s : State) : Host.Outcome State Fault Refusal :=
  .next (awake (fun s => if periodicDue s then callCheck k s else s) s)

/-- DEFER_TIMER_EXPIRY of crane `k` (R43). -/
def execDeferTimerExpiry (k : CraneNo) (s : State) : Host.Outcome State Fault Refusal :=
  .next (awake (fun s => if deferDue s k then deferExpires k s else s) s)

/-- The pending WITHDRAW of crane `k` expires where it is due (R127). -/
def silenceExpires (k : CraneNo) (s : State) : State :=
  match s.cranes[k].directive with
  | some d => if silenceDue s k then acceptBySilence k d s else s
  | none => s

/-- SILENCE_EXPIRY of crane `k` (R127). -/
def execSilenceExpiry (k : CraneNo) (s : State) : Host.Outcome State Fault Refusal :=
  .next (awake (silenceExpires k) s)

/-- Lane `l` is handed over where its slot is FREE with a request pending (R89). -/
def handoverFalls (l : LaneNo) (s : State) : State :=
  match s.lanes[l].slot, s.lanes[l].request with
  | .free _, some q => handOver l q s
  | _, _ => s

/-- HANDOVER of lane `l` (R89). -/
def execHandover (l : LaneNo) (s : State) : Host.Outcome State Fault Refusal :=
  .next (awake (handoverFalls l) s)

end Sys2Proof.Machine
end

