-- ==== Sys2Proof/Machine/Field.lean ====
section
/-! DEFINITION. The commands of the field line: a visit, its POLL, its reply window, and the end of its reply (R142 to
R153). -/

namespace Sys2Proof.Machine

/-- VISIT (R142, R143). -/
def execVisit (s : State) : Host.Outcome State Fault Refusal := .next (awake beginVisit s)

/-- The last character of the POLL has been sent: the reply window opens, REPLY_WINDOW ms long (R146). -/
def pollSent (s : State) : State :=
  match s.field.visit with
  | some v =>
    match v.phase with
    | .sending => setPhase (.window (par s Config.REPLY_WINDOW)) s
    | .window _ | .collecting _ => s
  | none => s

/-- POLL_SENT (R146). -/
def execPollSent (s : State) : Host.Outcome State Fault Refusal := .next (awake pollSent s)

/-- The reply window closes with no mark character received: the visit ends with a miss (R146, R147). -/
def windowCloses (s : State) : State :=
  match s.field.visit with
  | some v =>
    match v.phase with
    | .window _ => miss v.station (endVisit s)
    | .sending | .collecting _ => s
  | none => s

/-- REPLY_WINDOW_CLOSE (R146). -/
def execReplyWindowClose (s : State) : Host.Outcome State Fault Refusal := .next (awake windowCloses s)

/-- A mark character arrives in the reply window and becomes the reply of the visit (R146). -/
def replyBegins (c : RxChar) (s : State) : State :=
  match s.field.visit with
  | some v =>
    match v.phase with
    | .window _ => if isMark v.settings c then setPhase (.collecting c.data) s else s
    | .sending | .collecting _ => s
  | none => s

/-- REPLY_MARK_CHARACTER (R146). -/
def execReplyMarkCharacter (c : RxChar) (s : State) : Host.Outcome State Fault Refusal :=
  .next (awake (replyBegins c) s)

/-- A gap ends the reply being collected incomplete (R146, R147). -/
def fieldGapPasses (s : State) : State :=
  match s.field.visit with
  | some v =>
    match v.phase with
    | .collecting _ => badReply v.station .incomplete (endVisit s)
    | .sending | .window _ => s
  | none => s

/-- FIELD_GAP (R146). -/
def execFieldGap (s : State) : Host.Outcome State Fault Refusal := .next (awake fieldGapPasses s)

/-- The end can come about at these line settings: no parity error where no parity is in use, and no excess length of
120 or less (R154, R157). -/
def endPossible (ls : LineSettings) : ReplyEnd → Bool
  | .framing => true
  | .parity => decide (ls.parity ≠ .none)
  | .length given => decide (Config.bodyCapacity < given.toNat)
  | .newMark => true
  | .telegram .. => true

/-- The reply being collected ends, the visit with it, and is judged (R146, R147). -/
def replyEnds (e : ReplyEnd) (s : State) : State :=
  match s.field.visit with
  | some v =>
    match v.phase with
    | .collecting m => if endPossible v.settings e then judgeReply v m e (endVisit s) else s
    | .sending | .window _ => s
  | none => s

/-- FIELD_REPLY_END (R147). -/
def execFieldReplyEnd (e : ReplyEnd) (s : State) : Host.Outcome State Fault Refusal := .next (awake (replyEnds e) s)

end Sys2Proof.Machine
end

