-- ==== Sys2Proof/Machine/Router.lean ====
section
/-! DEFINITION. The commands by which the telegram router takes the head telegram of the inbound queue (R160, TABLE 58):
orders, directives, management telegrams, pass-through telegrams and telegrams that no block takes. A command whose
telegram is not at the head leaves the part as it is (notes/assumptions/3.md). -/

namespace Sys2Proof.Machine

/-! ### Orders (R8, R10, R11) -/

/-- ORDER_ADD (R8). -/
def execOrderAdd (s : State) : Host.Outcome State Fault Refusal :=
  .next (awake (takeHead fun r t s => match r with
    | .add k => some (takeAdd k t.body s)
    | _ => none) s)

/-- ORDER_AMEND (R10). -/
def execOrderAmend (s : State) : Host.Outcome State Fault Refusal :=
  .next (awake (takeHead fun r t s => match r with
    | .amend k => some (takeAmend k t.body s)
    | _ => none) s)

/-- ORDER_CANCEL (R11). -/
def execOrderCancel (s : State) : Host.Outcome State Fault Refusal :=
  .next (awake (takeHead fun r t s => match r with
    | .cancel k => some (takeCancel k t.body s)
    | _ => none) s)

/-! ### Directives (R120 to R128) -/

/-- The directive unit takes a DIRECTIVE telegram whose body names kind `d`, or names no kind at all: such a body is
refused, whichever of the six rows takes it. DESIGN CHOICE: notes/assumptions/11.md. -/
def directiveFor (d : DirectiveKind) (r : Route) (t : Telegram) (s : State) : Option Answer :=
  match r with
  | .directive k named => if named.all fun x => decide (x = d) then some (takeDirective k t.body s) else none
  | _ => none

/-- HOLD (R122). -/
def execHold (s : State) : Host.Outcome State Fault Refusal := .next (awake (takeHead (directiveFor .hold)) s)

/-- RESUME (R123). -/
def execResume (s : State) : Host.Outcome State Fault Refusal := .next (awake (takeHead (directiveFor .resume)) s)

/-- SKIP (R124). -/
def execSkip (s : State) : Host.Outcome State Fault Refusal := .next (awake (takeHead (directiveFor .skip)) s)

/-- PROMOTE (R125). -/
def execPromote (s : State) : Host.Outcome State Fault Refusal := .next (awake (takeHead (directiveFor .promote)) s)

/-- WITHDRAW (R126). -/
def execWithdraw (s : State) : Host.Outcome State Fault Refusal := .next (awake (takeHead (directiveFor .withdraw)) s)

/-- RETURN (R128). -/
def execReturnCrane (s : State) : Host.Outcome State Fault Refusal :=
  .next (awake (takeHead (directiveFor .returnCrane)) s)

/-! ### Management telegrams (R171 to R176, R134, R138, R117) -/

/-- The management unit takes a telegram of kind `kind`. DESIGN CHOICE: notes/assumptions/5.md. -/
def managementFor (kind : Byte) (act : List Byte → State → Answer) (r : Route) (t : Telegram) (s : State) :
    Option Answer :=
  match r with
  | .management x => if x = kind then some (act t.body s) else none
  | _ => none

/-- IDENT (R171). -/
def execIdent (s : State) : Host.Outcome State Fault Refusal :=
  .next (awake (takeHead (managementFor Config.kIdent takeIdent)) s)

/-- STATUS (R172). -/
def execStatus (s : State) : Host.Outcome State Fault Refusal :=
  .next (awake (takeHead (managementFor Config.kStatus takeStatus)) s)

/-- READ (R173). -/
def execRead (s : State) : Host.Outcome State Fault Refusal :=
  .next (awake (takeHead (managementFor Config.kRead takeRead)) s)

/-- SET_PARAM (R174). -/
def execSetParam (s : State) : Host.Outcome State Fault Refusal :=
  .next (awake (takeHead (managementFor Config.kSetParam takeSetParam)) s)

/-- LOAD_ROSTER (R175). -/
def execLoadRoster (s : State) : Host.Outcome State Fault Refusal :=
  .next (awake (takeHead (managementFor Config.kLoadRoster takeLoadRoster)) s)

/-- LOAD_LANES (R82). -/
def execLoadLanes (s : State) : Host.Outcome State Fault Refusal :=
  .next (awake (takeHead (managementFor Config.kLoadLanes takeLoadLanes)) s)

/-- LOAD_BAYS (R101). -/
def execLoadBays (s : State) : Host.Outcome State Fault Refusal :=
  .next (awake (takeHead (managementFor Config.kLoadBays takeLoadBays)) s)

/-- LOAD_AREAS (R102). -/
def execLoadAreas (s : State) : Host.Outcome State Fault Refusal :=
  .next (awake (takeHead (managementFor Config.kLoadAreas takeLoadAreas)) s)

/-- LOAD_POLLPLAN (R142). -/
def execLoadPollplan (s : State) : Host.Outcome State Fault Refusal :=
  .next (awake (takeHead (managementFor Config.kLoadPollplan takeLoadPollplan)) s)

/-- ACK_SUMMARY (R169). -/
def execAckSummary (s : State) : Host.Outcome State Fault Refusal :=
  .next (awake (takeHead (managementFor Config.kAckSummary takeAckSummary)) s)

/-- HOLD_BERTH (R134). -/
def execHoldBerth (s : State) : Host.Outcome State Fault Refusal :=
  .next (awake (takeHead (managementFor Config.kHoldBerth takeHoldBerth)) s)

/-- RELEASE_BERTH (R138). -/
def execReleaseBerth (s : State) : Host.Outcome State Fault Refusal :=
  .next (awake (takeHead (managementFor Config.kReleaseBerth takeReleaseBerth)) s)

/-- RESET_COORD (R176). -/
def execResetCoord (s : State) : Host.Outcome State Fault Refusal :=
  .next (awake (takeHead (managementFor Config.kResetCoord takeResetCoord)) s)

/-- GANG_CLEAR (R117). -/
def execGangClear (s : State) : Host.Outcome State Fault Refusal :=
  .next (awake (takeHead (managementFor Config.kGangClear takeGangClear)) s)

/-! ### Telegrams that no unit answers, or that the router refuses (R145, R160) -/

/-- PASS_THROUGH: the head telegram is handed to the forward queue (R145). -/
def execPassThrough (s : State) : Host.Outcome State Fault Refusal :=
  .next (awake (dropHead fun r t s => match r with
    | .forward => some (forward t s)
    | _ => none) s)

/-- ROUTE_REFUSED_UNKNOWN: the router refuses the head telegram UNKNOWN (R160). -/
def execRouteRefusedUnknown (s : State) : Host.Outcome State Fault Refusal :=
  .next (awake (takeHead fun r _ s => match r with
    | .unknown => some (refuse .unknown s)
    | _ => none) s)

/-- UNUSED_MARK: the router drops the head telegram with a LINE report (R160). -/
def execUnusedMark (s : State) : Host.Outcome State Fault Refusal :=
  .next (awake (dropHead fun r t s => match r with
    | .unused => some (report (.line (.unusedMark t.mark t.kind)) s)
    | _ => none) s)

end Sys2Proof.Machine
end

