-- ==== Sys2Proof/Machine/Uplink.lean ====
section
/-! DEFINITION. The commands of the uplink port: the receiver, the break and the transmitter (R157 to R165). -/

namespace Sys2Proof.Machine

/-- UPLINK_TELEGRAM_COMPLETE (R157, R158). -/
def execUplinkTelegramComplete (kind sequence : Byte) (body : List Byte) (received : BitVec 16) (s : State) :
    Host.Outcome State Fault Refusal :=
  .next (awake (telegramCompletes kind sequence body received) s)

/-- UPLINK_TELEGRAM_DISCARDED (R157). -/
def execUplinkTelegramDiscarded (cause : DiscardCause) (s : State) : Host.Outcome State Fault Refusal :=
  .next (awake (telegramDiscarded cause) s)

/-- UPLINK_GAP (R157). -/
def execUplinkGap (s : State) : Host.Outcome State Fault Refusal := .next (awake gapPasses s)

/-- BREAK (R164). -/
def execBreak (s : State) : Host.Outcome State Fault Refusal := .next (awake breakBegins s)

/-- BREAK_END (R164). -/
def execBreakEnd (s : State) : Host.Outcome State Fault Refusal := .next (awake breakEnds s)

/-- TRANSMIT_START (R162). -/
def execTransmitStart (s : State) : Host.Outcome State Fault Refusal := .next (awake transmitStart s)

/-- RESPONSE_SENT (R161, R165). -/
def execResponseSent (s : State) : Host.Outcome State Fault Refusal := .next (awake responseSent s)

/-- REPORT_SENT (R168). -/
def execReportSent (s : State) : Host.Outcome State Fault Refusal := .next (awake reportSent s)

/-- UPLINK_MARK_CHARACTER (R157). -/
def execUplinkMarkCharacter (c : RxChar) (s : State) : Host.Outcome State Fault Refusal :=
  .next (awake (huntedCharacter c) s)

end Sys2Proof.Machine
end

