-- ==== Sys2Proof/Machine/Dispatch.lean ====
section
/-! DEFINITION. Dispatch: one arm for each command, one direct call of its meaning. -/

namespace Sys2Proof.Machine

def exec (i : Instr) (s : State) : Host.Outcome State Fault Refusal :=
  match i with
  | .powerOn => Sys2Proof.Machine.execPowerOn s
  | .resetAsserted => Sys2Proof.Machine.execResetAsserted s
  | .resetNegated => Sys2Proof.Machine.execResetNegated s
  | .stopContactChange closed => Sys2Proof.Machine.execStopContactChange closed s
  | .contactDebounced => Sys2Proof.Machine.execContactDebounced s
  | .periodicCallCheck k => Sys2Proof.Machine.execPeriodicCallCheck k s
  | .deferTimerExpiry k => Sys2Proof.Machine.execDeferTimerExpiry k s
  | .silenceExpiry k => Sys2Proof.Machine.execSilenceExpiry k s
  | .handover l => Sys2Proof.Machine.execHandover l s
  | .uplinkTelegramComplete kind sequence body received => Sys2Proof.Machine.execUplinkTelegramComplete kind sequence body received s
  | .uplinkTelegramDiscarded cause => Sys2Proof.Machine.execUplinkTelegramDiscarded cause s
  | .uplinkGap => Sys2Proof.Machine.execUplinkGap s
  | .breakRecognised => Sys2Proof.Machine.execBreak s
  | .breakEnd => Sys2Proof.Machine.execBreakEnd s
  | .transmitStart => Sys2Proof.Machine.execTransmitStart s
  | .responseSent => Sys2Proof.Machine.execResponseSent s
  | .reportSent => Sys2Proof.Machine.execReportSent s
  | .orderAdd => Sys2Proof.Machine.execOrderAdd s
  | .orderAmend => Sys2Proof.Machine.execOrderAmend s
  | .orderCancel => Sys2Proof.Machine.execOrderCancel s
  | .hold => Sys2Proof.Machine.execHold s
  | .resume => Sys2Proof.Machine.execResume s
  | .skip => Sys2Proof.Machine.execSkip s
  | .promote => Sys2Proof.Machine.execPromote s
  | .withdraw => Sys2Proof.Machine.execWithdraw s
  | .returnCrane => Sys2Proof.Machine.execReturnCrane s
  | .ident => Sys2Proof.Machine.execIdent s
  | .status => Sys2Proof.Machine.execStatus s
  | .read => Sys2Proof.Machine.execRead s
  | .setParam => Sys2Proof.Machine.execSetParam s
  | .loadRoster => Sys2Proof.Machine.execLoadRoster s
  | .loadLanes => Sys2Proof.Machine.execLoadLanes s
  | .loadBays => Sys2Proof.Machine.execLoadBays s
  | .loadAreas => Sys2Proof.Machine.execLoadAreas s
  | .loadPollplan => Sys2Proof.Machine.execLoadPollplan s
  | .ackSummary => Sys2Proof.Machine.execAckSummary s
  | .holdBerth => Sys2Proof.Machine.execHoldBerth s
  | .releaseBerth => Sys2Proof.Machine.execReleaseBerth s
  | .resetCoord => Sys2Proof.Machine.execResetCoord s
  | .gangClear => Sys2Proof.Machine.execGangClear s
  | .passThrough => Sys2Proof.Machine.execPassThrough s
  | .routeRefusedUnknown => Sys2Proof.Machine.execRouteRefusedUnknown s
  | .unusedMark => Sys2Proof.Machine.execUnusedMark s
  | .visit => Sys2Proof.Machine.execVisit s
  | .pollSent => Sys2Proof.Machine.execPollSent s
  | .replyWindowClose => Sys2Proof.Machine.execReplyWindowClose s
  | .fieldGap => Sys2Proof.Machine.execFieldGap s
  | .fieldReplyEnd e => Sys2Proof.Machine.execFieldReplyEnd e s
  | .uplinkMarkCharacter c => Sys2Proof.Machine.execUplinkMarkCharacter c s
  | .replyMarkCharacter c => Sys2Proof.Machine.execReplyMarkCharacter c s

end Sys2Proof.Machine
end

