-- ==== Sys2Proof/Machine/Step.lean ====
section
/-! DEFINITION. One step of the part: the command at the front of the queue, or, where none waits, one tick of the quay
clock (notes/assumptions/1.md). -/

namespace Sys2Proof.Machine

/-- No command waits: the quay clock counts one ds, unless the reset input holds it at 0 (R45). -/
def tick (s : State) : State := if s.resetAsserted then s else tickClock s

/-- One step: the command at the front of the queue is taken and carried out whole on the state with the queue's rest. -/
def step (s : State) : Host.Outcome State Fault Refusal :=
  match s.pending with
  | [] => .next (tick s)
  | c :: rest => exec c { s with pending := rest }

/-- The command that a word spells, put at the front of the queue; a word that spells none changes nothing. The opcode
table gives its rows no bits, so no word spells a command (Decode.lean). -/
def State.withFetchWord (s : State) (nbits w : Nat) : State :=
  match decodeTableWord nbits w with
  | some c => { s with pending := c :: s.pending }
  | none => s

end Sys2Proof.Machine
end

