-- ==== Sys2Proof/Safety.lean ====
section
/-! DEFINITION. What a sound state of the part is: the laws that the manual says always hold, each as a property of one
state. The claims say that reset meets them and that every step keeps them. -/

namespace Sys2Proof.Machine

/-- The move numbers of crane `k`'s queue, head first. -/
def queueNumbers (s : State) (k : CraneNo) : List MoveNo := (s.queues[k]).map (·.number)

/-- R1: the pool holds at most 512 records and a queue at most 96, and no two records share a number. -/
structure PoolLaw (s : State) : Prop where
  pool_le : (pool s).length ≤ 512
  queue_le : ∀ k : CraneNo, (s.queues[k]).length ≤ 96
  unique : ((pool s).map (·.number)).Nodup

/-- R142, R145, R158, R166: the report queue, inbound queue, forward queue and poll plan keep within their capacities.
R159: the ready output is negated at a fill of 6 or more, and asserted at 2 or fewer. -/
structure BufferLaw (s : State) : Prop where
  reports_le : s.reports.queue.length ≤ 64
  inbound_le : s.uplink.inbound.length ≤ 8
  forward_le : s.field.forward.length ≤ 16
  plan_le : s.field.plan.length ≤ 32
  negated : 6 ≤ s.uplink.inbound.length → s.uplink.ready = false
  asserted : s.uplink.inbound.length ≤ 2 → s.uplink.ready = true

/-- The cause set is empty. -/
def Causes.empty (c : Causes) : Bool := !c.contact && !c.wind && !c.command

/-- R130: the berth is RUNNING exactly when the cause set is empty. -/
def BerthLaw (s : State) : Prop := s.berth.state = .running ↔ s.berth.causes.empty = true

/-- R36: a crane has a STAGED move only while it also has an ACTIVE move; R126: and a crane with a WITHDRAW pending has
none staged. -/
structure CraneSlotLaw (s : State) : Prop where
  staged_active : ∀ k : CraneNo, (s.cranes[k]).staged.isSome → (s.cranes[k]).active.isSome
  withdraw_unstaged : ∀ k : CraneNo, withdrawPending s.cranes[k] = true → (s.cranes[k]).staged = none

/-- R87, R88: a request stands only on an owned lane, from a crane other than the owner, and a crane has at most one
request standing. -/
structure RequestLaw (s : State) : Prop where
  other : ∀ (l : LaneNo) (q : Request), (s.lanes[l]).request = some q → ∃ j, (s.lanes[l]).owner = some j ∧ j ≠ q.crane
  single : ∀ (l l' : LaneNo) (q q' : Request), (s.lanes[l]).request = some q → (s.lanes[l']).request = some q' →
    q.crane = q'.crane → l = l'

/-- R108: an area has a queued job, and one at most, exactly while it waits; it has a gang sent to it exactly while its
deck is being worked; and the gang present on it is that gang. -/
structure LashLaw (s : State) : Prop where
  single : (s.jobs.map (·.area)).Nodup
  queued : ∀ (a : AreaNo) (k : JobKind), (⟨a, k⟩ : Job) ∈ s.jobs ↔ (s.areas[a]).deck = k.waiting
  worked : ∀ (a : AreaNo) (k : JobKind),
    (s.areas[a]).deck = k.underWay ↔ ∃ g : GangNo, (s.gangs[g]).state.job = some ⟨a, k⟩
  present : ∀ (a : AreaNo) (g : GangNo),
    (s.areas[a]).gang = some g ↔ ∃ k : JobKind, (s.gangs[g]).state.job = some ⟨a, k⟩

/-- TABLE 62, R174: every parameter stands in its range and within the dependent limits; R46: every smoothed time lies
within 16 times CYCLE_MIN and CYCLE_MAX. -/
structure ParamLaw (s : State) : Prop where
  range : ∀ i : Config.Param, Config.paramTable[i].low ≤ par s i ∧ par s i ≤ Config.paramTable[i].high
  cycle : par s Config.CYCLE_MIN ≤ par s Config.CYCLE_MAX
  wind : par s Config.WIND_RESUME + 10 ≤ par s Config.WIND_STOP
  smoothed : ∀ k : CraneNo,
    16 * par s Config.CYCLE_MIN ≤ s.cycles[k].single ∧ s.cycles[k].single ≤ 16 * par s Config.CYCLE_MAX ∧
    16 * par s Config.CYCLE_MIN ≤ s.cycles[k].dual ∧ s.cycles[k].dual ≤ 16 * par s Config.CYCLE_MAX

/-- R141, R150: a missed count lies in 0 to 3, and a station is SILENT exactly when its count is 3. -/
def StationLaw (s : State) : Prop :=
  ∀ st : Station, (s.stations[st.index]).missed ≤ 3 ∧ ((s.stations[st.index]).state = .silent ↔ (s.stations[st.index]).missed = 3)

/-- TABLE 14, R25: a crane is ABSENT exactly when the roster has no entry for it, and an ABSENT crane has no directive
pending. -/
structure RosterLaw (s : State) : Prop where
  absent : ∀ k : CraneNo, (s.cranes[k]).mode = .absent ↔ s.roster[k] = none
  idle : ∀ k : CraneNo, (s.cranes[k]).mode = .absent → (s.cranes[k]).directive = none

/-! ### Frames -/

/-- What evaluations, call checks, lane rules and dispatch passes may do to a crane context: they write the JOBLIST mark, clear the WAIT mark, stop the defer timer, and
fill an empty crane slot. Nothing else changes, and a filled slot stays as it is. -/
structure CraneKeeps (c d : Crane) : Prop where
  mode : d.mode = c.mode
  held : d.held = c.held
  fault : d.fault = c.fault
  position : d.position = c.position
  wind : d.wind = c.wind
  serial : d.serial = c.serial
  view : d.view = c.view
  jobWanted : d.jobWanted = c.jobWanted
  lastCompletion : d.lastCompletion = c.lastCompletion
  directive : d.directive = c.directive
  silenceStart : d.silenceStart = c.silenceStart
  active : ∀ n, c.active = some n → d.active = some n
  staged : ∀ n, c.staged = some n → d.staged = some n
  defer : d.deferStart = c.deferStart ∨ d.deferStart = none
  wait : d.waitMark = c.waitMark ∨ d.waitMark = none

/-- The planned part of a record and its abandoned mark are the same. -/
structure SamePlan (r r' : MoveRecord) : Prop where
  number : r'.number = r.number
  kind : r'.kind = r.kind
  legs : r'.legs = r.legs
  afterMove : r'.afterMove = r.afterMove
  abandoned : r'.abandoned = r.abandoned

/-- Two queues hold the same moves: no number is gained or multiplied, none is lost, and each record of the second
carries what was planned for one of the first. -/
structure SameMoves (q q' : List MoveRecord) : Prop where
  numbers : (q'.map (·.number)).Subperm (q.map (·.number))
  kept : ∀ r ∈ q, ∃ r' ∈ q', r'.number = r.number
  plan : ∀ r' ∈ q', ∃ r ∈ q, SamePlan r r'

/-- What evaluations, call checks, lane rules and dispatch passes may do to a lane: the row of the lane map and the
presence filter stay, and an owner once there stays. -/
structure LaneKeeps (x y : Lane) : Prop where
  use : y.use = x.use
  travel : y.travel = x.travel
  activeLow : y.activeLow = x.activeLow
  settle : y.settle = x.settle
  present : y.present = x.present
  candidate : y.candidate = x.candidate
  owner : ∀ k, x.owner = some k → y.owner = some k

/-- What they may do to a gang: only an IDLE gang is sent anywhere, and no event serial changes. -/
structure GangKeeps (x y : Gang) : Prop where
  serial : y.serial = x.serial
  busy : x.state ≠ .idle → y = x

/-- The frame of a command whose further effects are evaluations, call checks, lane rules and dispatch passes alone: no
clock, parameter, cycle time, roster or bay row, berth, station or field line state changes; and cranes, moves, lanes,
gangs and areas change no more than said above. The report queue, the GATE_LIGHT marks, the gang jobs and the uplink are
left to each claim. -/
structure WorkFrame (s t : State) : Prop where
  pending : t.pending = s.pending
  resetAsserted : t.resetAsserted = s.resetAsserted
  clock : t.clock = s.clock
  params : t.params = s.params
  cycles : t.cycles = s.cycles
  roster : t.roster = s.roster
  bays : t.bays = s.bays
  berth : t.berth = s.berth
  stations : t.stations = s.stations
  field : t.field = s.field
  cranes : ∀ k : CraneNo, CraneKeeps s.cranes[k] t.cranes[k]
  moves : ∀ k : CraneNo, SameMoves s.queues[k] t.queues[k]
  lanes : ∀ l : LaneNo, LaneKeeps s.lanes[l] t.lanes[l]
  gangs : ∀ g : GangNo, GangKeeps s.gangs[g] t.gangs[g]
  flags : ∀ a : AreaNo, (t.areas[a]).lashRequired = (s.areas[a]).lashRequired

/-! ### Taking a telegram -/

/-- The router may take telegram `t` now: the part is not held in reset, no earlier RESPONSE waits to be placed, and `t`
is at the head of the inbound queue (R160, R161, R177). -/
structure AtHead (s : State) (t : Telegram) : Prop where
  awake : s.resetAsserted = false
  placed : s.uplink.waiting = none
  head : s.uplink.inbound.head? = some t

/-- `t` is at the head, addressed to crane `k`, with this kind (TABLE 58). -/
structure ToCrane (s : State) (t : Telegram) (k : CraneNo) (kind : Byte) : Prop extends AtHead s t where
  mark : t.mark = (Station.crane k).mark
  device : t.mark.toNat ≠ par s Config.DEVICE_MARK
  kind : t.kind = kind

/-- `t` is at the head, addressed to the part itself, with this kind (TABLE 58). -/
structure ToPart (s : State) (t : Telegram) (kind : Byte) : Prop extends AtHead s t where
  mark : t.mark.toNat = par s Config.DEVICE_MARK
  kind : t.kind = kind

/-- The uplink once the head telegram has left the inbound queue (R158, R159). -/
def takenUplink (u : Uplink) : Uplink :=
  { u with
    inbound := u.inbound.tail
    ready := if u.inbound.tail.length ≤ 2 then true else u.ready }

/-- The uplink once telegram `t` has been taken and its RESPONSE placed: the RESPONSE carries the telegram's mark,
sequence and kind with the outcome and the data, and stands in the response buffer, or waits where that is full
(R161). -/
def answeredUplink (u : Uplink) (t : Telegram) (result : Result) (data : List Byte)
    (settings : Option LineSettings) : Uplink :=
  { takenUplink u with
    buffer := some (u.buffer.getD ⟨t.mark, t.sequence, t.kind, result, data, settings⟩)
    waiting := if u.buffer.isSome then some ⟨t.mark, t.sequence, t.kind, result, data, settings⟩ else none }

/-- The telegram was answered with this outcome and nothing else changed (R7, R120, R171). -/
def answeredOnly (s : State) (t : Telegram) (result : Result) : State :=
  { s with uplink := answeredUplink s.uplink t result [] none }

/-- The command of the directive row of a kind. -/
def DirectiveKind.row : DirectiveKind → Instr
  | .hold => .hold
  | .resume => .resume
  | .skip => .skip
  | .promote => .promote
  | .withdraw => .withdraw
  | .returnCrane => .returnCrane

end Sys2Proof.Machine
end

