-- ==== Sys2Proof/Certificates/Slice0/Obligations.lean ====
section
/-! DEFINITION. The statements that the provers are asked to prove of the model. -/

open Sys2Proof Sys2Proof.Machine

/-! ### Steps -/

/-- One step takes the command at the front of the queue and carries it out on the state with the queue's rest. -/
def Obligations.StepTakesTheFrontCommand : Prop :=
  ∀ (c : Instr) (rest : List Instr) (s : State),
    step { s with pending := c :: rest } = exec c { s with pending := rest }

/-- Every command completes in every state: the model's reading that nothing stops the part (assumption 28, DEDUCED),
with the model's choice that a command whose event is not due or not possible leaves the state (assumption 3). None
touches the commands that wait behind it, `pending` being the model's own field (assumption 5). With no command waiting a
step is one tick of the quay clock, which counts modulo 2^32 unless the reset input holds it (R45), and nothing else: the
model's choice (assumption 1). -/
def Obligations.EveryStepCompletes : Prop :=
  (∀ (c : Instr) (s : State), ∃ t, exec c s = .next t ∧ t.pending = s.pending) ∧
  ∀ s : State, s.pending = [] →
    step s = .next { s with clock := if s.resetAsserted then s.clock else s.clock + 1 }

/-! ### The laws that every step keeps -/

/-- R1: the pool and the queues keep within their capacities, and no two records share a number. R142, R145, R158, R159,
R166: every queue of the telegram side keeps within its capacity, and the ready output is as the inbound queue's fill
requires. R46, R51, R174, TABLE 62: every parameter stands in its range and its dependent limits, and every smoothed time
within 16 times CYCLE_MIN and CYCLE_MAX. Each is kept on its own. -/
def Obligations.CapacityAndRangeLawsKept : Prop :=
  ∀ s t : State, step s = .next t →
    (PoolLaw s → PoolLaw t) ∧ (BufferLaw s → BufferLaw t) ∧ (ParamLaw s → ParamLaw t)

/-- Each of five laws is kept on its own. R130: the berth is RUNNING exactly when the cause set is empty. R36, R126: a
STAGED move stands only beside an ACTIVE one, and never beside a pending WITHDRAW. R87, R88: a request is never pending
from a lane's owner, and a crane has at most one standing. R141, R150: a missed count lies in 0 to 3, and is 3 exactly
where the station is SILENT. R25: a crane is ABSENT exactly where the roster has no entry for it, and then has no
directive pending. -/
def Obligations.BerthCraneAndStationLawsKept : Prop :=
  ∀ s t : State, step s = .next t →
    (BerthLaw s → BerthLaw t) ∧ (CraneSlotLaw s → CraneSlotLaw t) ∧ (RequestLaw s → RequestLaw t) ∧
      (StationLaw s → StationLaw t) ∧ (RosterLaw s → RosterLaw t)

/-- R108: jobs, deck states, gangs sent and gangs present agree. LOAD_AREAS is left out: R102 tests each of its areas on
the tables as they stand before the telegram, so that an earlier row's lash test may send a gang to a later row's area
where a free gang and a dispatchable job stood unserved, and such states are not ruled out by this law (assumption 27). -/
def Obligations.LashLawKept : Prop :=
  ∀ s t : State, LashLaw s → s.pending.head? ≠ some .loadAreas → step s = .next t → LashLaw t

/-- The state after reset meets every law. -/
def Obligations.ResetMeetsTheLaws : Prop :=
  PoolLaw State.reset ∧ BufferLaw State.reset ∧ BerthLaw State.reset ∧ CraneSlotLaw State.reset ∧
    RequestLaw State.reset ∧ LashLaw State.reset ∧ ParamLaw State.reset ∧ StationLaw State.reset ∧
    RosterLaw State.reset

/-! ### Power, reset and the stop contact -/

/-- R177 (and R23, R45, R46, R84, R98, R101, R102, R108, R132, R137, R140, R141, TABLES 14, 27, 36, 39, 62): POWER_ON gives
every table, queue, line, mark, counter and parameter its power-on value; RESET_ASSERTED does the same and leaves the part
held. The model's choices in it: the levels at the two input pins stay (assumption 4), the commands that wait stay
(assumption 5), and the transmitter has nothing to send, to send again or to place, and stands in no break (assumption
26). That the bay map and the area table take their power-on values follows R101, R102 and R177 against a sentence of R23
(assumption 37). -/
def Obligations.PowerOnValues : Prop :=
  ∀ s : State, ∃ t, exec .powerOn s = .next t ∧ exec .resetAsserted s = .next { t with resetAsserted := true } ∧
    t.pending = s.pending ∧ t.resetAsserted = s.resetAsserted ∧ t.clock = 0 ∧
    (∀ i : Config.Param, par t i = (Config.paramTable[i]).default) ∧
    (∀ k : CraneNo, t.queues[k] = [] ∧ t.cycles[k] = ⟨19200, 27200⟩ ∧ t.roster[k] = none ∧
      t.cranes[k] =
        { mode := .absent, held := false, fault := false, active := none, staged := none, position := none, wind := 0
          serial := none, view := none, jobWanted := false, deferStart := none, lastCompletion := none
          jobMark := .clear, waitMark := none, directive := none, silenceStart := none }) ∧
    (∀ l : LaneNo, t.lanes[l] = ⟨.unused, 0, false, 1, .free false, false, none, none, none⟩) ∧
    (∀ u : GateNo, t.gateMarks[u] = true) ∧ (∀ i : Fin 64, t.bays[i] = none) ∧
    (∀ a : AreaNo, t.areas[a] = ⟨.lashed, false, none⟩) ∧ t.jobs = [] ∧
    (∀ g : GangNo, t.gangs[g] = ⟨.off, none, .clear⟩) ∧
    t.berth = ⟨.held, ⟨false, false, true⟩, s.berth.rawClosed, 0, false, none⟩ ∧
    (∀ i : Fin 22, t.stations[i] = ⟨.unknown, 0⟩) ∧
    t.field = { plan := [], nextSlot := 0, sequence := 0, forward := [], visit := none } ∧
    t.reports.queue = [] ∧ t.reports.nextSerial = 0 ∧
    (∀ c : Fin 14, t.reports.seen[c] = false ∧ t.reports.lost[c] = false) ∧ attention t = false ∧
    t.uplink =
      { receiver := .hunting, inbound := [], ready := true
        latches := #v[false, false, false, false, false, false]
        settings := { divider := 23, parity := .none, stop := 1 }
        buffer := none, waiting := none, sending := none, cutOff := none, breaking := false }

/-- R45, R46: at the negation of the reset input the quay clock stands at 0 and the smoothed times are set from
CYCLE_INIT_SINGLE and CYCLE_INIT_DUAL, clamped; nothing else changes. R177: while the reset input is asserted it holds the
part as it is. The model's choices (assumption 3): where the input is already negated its negation changes nothing, and
of all commands only power, the reset input itself and the level at the stop contact pin do anything while it is
asserted. -/
def Obligations.ResetHoldsThePartAndStartsTheClock : Prop :=
  (∀ s : State,
    (s.resetAsserted = true →
      exec .resetNegated s = .next { s with
        resetAsserted := false
        clock := 0
        cycles := Vector.replicate 8
          ⟨clamp (16 * par s Config.CYCLE_MIN) (16 * par s Config.CYCLE_MAX) (16 * par s Config.CYCLE_INIT_SINGLE),
            clamp (16 * par s Config.CYCLE_MIN) (16 * par s Config.CYCLE_MAX) (16 * par s Config.CYCLE_INIT_DUAL)⟩ }) ∧
    (s.resetAsserted = false → exec .resetNegated s = .next s)) ∧
  ∀ (c : Instr) (s : State), s.resetAsserted = true → c ≠ .powerOn → c ≠ .resetAsserted → c ≠ .resetNegated →
    (∀ b, c ≠ .stopContactChange b) → exec c s = .next s

/-- R132, R130: a change of the raw level records the quay clock, and a level given again is no change. A level that has
stood for 5 ds and differs from the debounced level is taken: a closing does nothing else; an opening of a held berth
adds CONTACT to the set, where it is not there yet, with a BERTH report, and keeps the state. That a debounce command
whose level has not stood so long, or does not differ, changes nothing is the model's choice (assumption 3). -/
def Obligations.StopContactDebounced : Prop :=
  (∀ (b : Bool) (s : State), exec (.stopContactChange b) s = .next
    (if s.berth.rawClosed = b then s
      else { s with berth := { s.berth with rawClosed := b, lastChange := s.clock } })) ∧
  ∀ s : State, s.resetAsserted = false →
    (s.berth.rawClosed ≠ s.berth.closed → 5 ≤ age s.clock s.berth.lastChange →
      (s.berth.rawClosed = true → exec .contactDebounced s = .next { s with berth := { s.berth with closed := true } }) ∧
      (s.berth.rawClosed = false → s.berth.causes.contact = true →
        exec .contactDebounced s = .next { s with berth := { s.berth with closed := false } }) ∧
      (s.berth.rawClosed = false → s.berth.causes.contact = false → s.berth.state ≠ .running →
        exec .contactDebounced s = .next { s with
          berth := { s.berth with closed := false, causes := { s.berth.causes with contact := true } }
          reports := (report (.berth (.causeAdded s.berth.state .contact { s.berth.causes with contact := true })) s).reports })) ∧
    (s.berth.rawClosed = s.berth.closed ∨ age s.clock s.berth.lastChange < 5 → exec .contactDebounced s = .next s)

/-! ### Slots, lanes and bays as the statements name them -/

/-- The BERTH report of the test of the berth state that a change of crane `k` calls for, from `s` to `t`: none where the
state stays, TO_HELD where it has become HELD, and TO_HOLDING with the crane where it has become HOLDING (R131). -/
def berthReport (k : CraneNo) (s t : State) : List Items :=
  if t.berth.state = s.berth.state then []
  else if t.berth.state = .held then [.berth (.toHeld s.berth.causes)]
  else [.berth (.toHolding s.berth.causes (some k))]

/-- The slot that a release leaves (TABLE 31). -/
def releasedSlot : Slot → Slot
  | .reserved _ | .called _ => .free false
  | .arrived _ => .worked
  | x => x

/-- The report that the release of a slot raises (TABLE 31). -/
def cancelReport (l : LaneNo) (c : ReleaseCause) : Slot → List Items
  | .called m => [.truckCancel l m false c]
  | .arrived m => [.truckCancel l m true c]
  | _ => []

/-- The reports are offered to the report queue one after another. -/
def offered (is : List Items) (s : State) : State := is.foldl (fun x i => report i x) s

/-- The state with the slot of lane `l` written as `x`, and its gate marked where the lane's signal changes (R97). -/
def slotWritten (l : LaneNo) (x : Slot) (s : State) : State :=
  let t := { s with lanes := s.lanes.set l { s.lanes[l] with slot := x } }
  if x.signal = (s.lanes[l]).slot.signal ∨ (s.lanes[l]).use = .unused then t
  else { t with gateMarks := s.gateMarks.set (gateOf l) true }

/-- The first row of the bay map that carries bay number `n` is `x` (no two rows carry one number, R101). -/
def BayAt (s : State) (n : Nat) (x : BayRow) : Prop :=
  ∃ i : Fin 64, s.bays[i] = some x ∧ x.bay = n ∧ ∀ j < i, ∀ y, s.bays[j] = some y → y.bay ≠ n

/-- A leg of the record touches zone `z` of bay `n`: its own bay and zone, or the place a RESTOW sets into (R3). -/
def Touches (r : MoveRecord) (n : Nat) (z : Zone) : Prop :=
  ∃ l ∈ r.legs, (n = l.bay ∧ z = l.zone) ∨ ∃ d, l.restow = some d ∧ n = d.toBay.getD l.bay ∧ z = d.toZone

/-- The record has a deck point in the area (R3, R101). -/
def DeckIn (s : State) (r : MoveRecord) (a : AreaNo) : Prop := ∃ n x, Touches r n .deck ∧ BayAt s n x ∧ x.area = a

/-- The record has a point, deck or hold, in the area. -/
def PointIn (s : State) (r : MoveRecord) (a : AreaNo) : Prop := ∃ n z x, Touches r n z ∧ BayAt s n x ∧ x.area = a

/-- A home lane of crane `k` in which a slot could be reserved now: of use HOME(k), listed by the roster, FREE with the
stray flag clear (R83, R85). -/
def HomeOpen (s : State) (k : CraneNo) (l : LaneNo) : Prop :=
  (s.lanes[l]).slot = .free false ∧ (s.lanes[l]).use = .home k ∧ ∃ e, s.roster[k] = some e ∧ l ∈ e.homeLanes

/-- A lane that crane `k` shares (R82). -/
def SharedBy (s : State) (k : CraneNo) (l : LaneNo) : Prop :=
  ∃ j : Fin 7, (s.lanes[l]).use = .shared j ∧ (k.val = j.val ∨ k.val = j.val + 1)

/-- A shared lane of crane `k` in which a slot could be reserved now: FREE with the stray flag clear, owned by none, or by
`k` with no request of the other crane pending (R85). -/
def SharedOpen (s : State) (k : CraneNo) (l : LaneNo) : Prop :=
  (s.lanes[l]).slot = .free false ∧ SharedBy s k l ∧
    ((s.lanes[l]).owner = none ∨
      ((s.lanes[l]).owner = some k ∧ ∀ q, (s.lanes[l]).request = some q → q.crane = k))

/-- The lane that the order of selection of crane `k` finds: the lowest open home lane, or where there is none the lowest
open shared lane (R85). -/
def FindsLane (s : State) (k : CraneNo) (l : LaneNo) : Prop :=
  (HomeOpen s k l ∧ ∀ m < l, ¬HomeOpen s k m) ∨
    (SharedOpen s k l ∧ (∀ m, ¬HomeOpen s k m) ∧ ∀ m < l, ¬SharedOpen s k m)

/-- The window of crane `k`: WINDOW records from the first that is neither ACTIVE nor STAGED (R30). -/
def windowOf (s : State) (k : CraneNo) : List MoveRecord :=
  ((s.queues[k]).dropWhile fun r => decide (r.state = .staged ∨ r.state = .active)).take (par s Config.WINDOW)

/-- The horizon of crane `k`: the first CALL_DEPTH records of its queue (R53). -/
def horizonOf (s : State) (k : CraneNo) : List MoveRecord := (s.queues[k]).take (par s Config.CALL_DEPTH)

/-- The state with the stale requests of crane `k` withdrawn: those whose move stands neither in its horizon nor in its
window (R90). -/
def withoutStale (k : CraneNo) (s : State) : State :=
  { s with lanes := Vector.ofFn fun l => { s.lanes[l] with
      request := (s.lanes[l]).request.filter fun q =>
        decide (q.crane ≠ k ∨ q.move ∈ (horizonOf s k ++ windowOf s k).map (·.number)) } }

/-- A lane that crane `k` shares and the other crane of its row owns (R88). -/
def OwnedByOther (s : State) (k : CraneNo) (l : LaneNo) : Prop :=
  SharedBy s k l ∧ ∃ j, (s.lanes[l]).owner = some j ∧ j ≠ k

/-- A request of crane `k` stands on some lane (R88). -/
def HasStanding (s : State) (k : CraneNo) : Prop :=
  ∃ (l : LaneNo) (q : Request), (s.lanes[l]).request = some q ∧ q.crane = k

/-- The candidate search seeks a lane for the move: it is READY, of a lane kind, and holds no slot (R31). -/
def SeeksLane (r : MoveRecord) : Prop := r.state = .ready ∧ r.kind ≠ .restow ∧ r.lane = none

/-- The requests after a search of crane `k` has taken the moves `ms` (R88): those before, and where no lane is found for
the moves that seek one, no request of the crane stands, and the other crane owns a lane of the two, one more for the first
such move, on the lowest such lane. -/
def RequestsRaised (k : CraneNo) (ms : List MoveRecord) (s t : State) : Prop :=
  ((∀ r ∈ ms, ¬SeeksLane r) ∨ (∃ l, FindsLane s k l) ∨ HasStanding s k ∨ (∀ l, ¬OwnedByOther s k l) →
    ∀ l : LaneNo, (t.lanes[l]).request = (s.lanes[l]).request) ∧
  ∀ (p : List MoveRecord) (r : MoveRecord) (q : List MoveRecord) (l : LaneNo), ms = p ++ r :: q →
    (∀ x ∈ p, ¬SeeksLane x) → SeeksLane r → (∀ m, ¬FindsLane s k m) → ¬HasStanding s k →
    OwnedByOther s k l → (∀ m < l, ¬OwnedByOther s k m) →
    ∀ m : LaneNo, (t.lanes[m]).request = if m = l then some ⟨k, r.number⟩ else (s.lanes[m]).request

/-- Some record among the first LASH_LEAD of a queue has a deck point in area `a` (R104). -/
def LeadWork (s : State) (a : AreaNo) : Prop :=
  ∃ k : CraneNo, ∃ r ∈ (s.queues[k]).take (par s Config.LASH_LEAD), DeckIn s r a

/-- State `t` is what a call check of crane `k` makes of `s` (R56, R57, R90): nothing where the crane is not IN_SERVICE, is
SILENT, or the berth is not RUNNING; and otherwise its stale requests are withdrawn once, each move of the horizon is
reserved for and called in order with its ahead time, and the crane is evaluated where that reserved a slot. That the stale
requests are withdrawn once, at the start, is the model's reading (assumption 12, DEDUCED), and that the one evaluation
follows the last move its choice (assumption 31). -/
def CallChecked (k : CraneNo) (s t : State) : Prop :=
  let allowed := (s.cranes[k]).mode = .inService ∧ stationState s (.crane k) ≠ .silent ∧ s.berth.state = .running
  let u := (aheadTimes s k (remainder s k) (horizonOf s k)).foldl
    (fun x m => checkCall k m.1 m.2 (checkReserve k m.1 x)) (withoutStale k s)
  (¬allowed → t = s) ∧
  (allowed → (∀ r ∈ s.queues[k], r.lane = none → ∀ r' ∈ u.queues[k], r'.number = r.number → r'.lane = none) → t = u) ∧
  (allowed → ∀ r ∈ s.queues[k], r.lane = none → (∃ r' ∈ u.queues[k], r'.number = r.number ∧ r'.lane.isSome) →
    t = evaluate k u)

/-! ### The berth -/

/-- The slot of lane `l` is taken from its move at the entry into a hold: the move is not ACTIVE, or stands in a crane's
staged slot and is taken back (R135 steps 3 and 4). -/
def freedByHold (s : State) (l : LaneNo) : Bool :=
  match (s.lanes[l]).slot.move.bind (findMove s) with
  | some (_, r) => decide (r.state ≠ .active) || cranes.any fun j => decide ((s.cranes[j]).staged = some r.number)
  | none => false

/-- What the entry into a hold for cause `c` leaves (R135): no request on any lane; the slot of every move that is not
ACTIVE released by TABLE 31, one that was STAGED among them, its move's hold on it cleared and its gate marked where the
signal changes, and every other slot as it was; no crane's staged slot filled, and a move that stood in one back in its
queue, in its place, as READY or PENDING; every ACTIVE move marked as overlapping the hold; the JOBLIST mark tested for a
crane whose staged slot was emptied; the berth HOLDING where a qualifying crane has an ACTIVE move and HELD otherwise,
with the cause alone in its set; a TRUCK_CANCEL for each called or arrived slot in ascending lane number and then the
ENTERED report; and nothing else changed. -/
structure HoldEntered (c : BerthCause) (s t : State) : Prop where
  lanes : ∀ l : LaneNo, t.lanes[l] = { s.lanes[l] with
    slot := if freedByHold s l then releasedSlot (s.lanes[l]).slot else (s.lanes[l]).slot
    request := none }
  gates : ∀ u : GateNo, t.gateMarks[u] = (s.gateMarks[u] ||
    Machine.lanes.any fun l => decide (gateOf l = u ∧ (t.lanes[l]).signal ≠ (s.lanes[l]).signal))
  cranes : ∀ k : CraneNo, t.cranes[k] = { s.cranes[k] with
    staged := none
    jobMark := if (s.cranes[k]).staged.isSome then agreement t k else (s.cranes[k]).jobMark }
  queues : ∀ k : CraneNo, queueNumbers t k = queueNumbers s k
  takenBack : ∀ (k : CraneNo) (n : MoveNo), (s.cranes[k]).staged = some n →
    ∀ r ∈ pool t, r.number = n → r.state = .ready ∨ r.state = .pending
  overlap : ∀ (k : CraneNo) (n : MoveNo), (s.cranes[k]).active = some n →
    ∀ r ∈ pool t, r.number = n → r.holdOverlap = true
  cleared : ∀ (l : LaneNo) (n : MoveNo), (s.lanes[l]).slot.move = some n → freedByHold s l = true →
    ∀ r ∈ pool t, r.number = n → r.lane = none ∧ r.called = false
  berth : t.berth = { s.berth with
    state := if Machine.cranes.any fun k => decide ((s.cranes[k]).mode = .inService) &&
        decide (stationState s (.crane k) ≠ .silent) && (s.cranes[k]).active.isSome then .holding else .held
    causes := ⟨decide (c = .contact), decide (c = .wind), decide (c = .command)⟩ }
  reports : t.reports = (offered ((Machine.lanes.flatMap fun l =>
      if freedByHold s l then cancelReport l .berthHold (s.lanes[l]).slot else []) ++
    [.berth (.entered t.berth.state c t.berth.causes)]) s).reports
  rest : t = { s with
    lanes := t.lanes, gateMarks := t.gateMarks, cranes := t.cranes, queues := t.queues, berth := t.berth
    reports := t.reports }

/-- R134, R135, R171: HOLD_BERTH with a body is refused RANGE; with none it is accepted in every berth state. Where COMMAND
is in the set it changes nothing; in HOLDING or HELD it joins the set with a BERTH report and the state is kept; while
RUNNING it enters a hold. R132: an opening of the stop contact while the berth is RUNNING enters a hold with the cause
CONTACT. -/
def Obligations.BerthHoldsEntered : Prop :=
  (∀ (s : State) (t : Telegram), ToPart s t Config.kHoldBerth →
    (t.body ≠ [] → exec .holdBerth s = .next (answeredOnly s t .range)) ∧
    (t.body = [] → s.berth.causes.command = true → exec .holdBerth s = .next (answeredOnly s t .accepted)) ∧
    (t.body = [] → s.berth.causes.command = false → s.berth.state ≠ .running →
      exec .holdBerth s = .next { s with
        uplink := answeredUplink s.uplink t .accepted [] none
        berth := { s.berth with causes := { s.berth.causes with command := true } }
        reports := (report (.berth (.causeAdded s.berth.state .command { s.berth.causes with command := true })) s).reports }) ∧
    (t.body = [] → s.berth.causes = ⟨false, false, false⟩ → s.berth.state = .running →
      ∃ u, exec .holdBerth s = .next u ∧ HoldEntered .command (answeredOnly s t .accepted) u)) ∧
  ∀ s : State, s.resetAsserted = false → s.berth.closed = true → s.berth.rawClosed = false →
    5 ≤ age s.clock s.berth.lastChange → s.berth.state = .running → s.berth.causes = ⟨false, false, false⟩ →
    ∃ u, exec .contactDebounced s = .next u ∧ HoldEntered .contact { s with berth := { s.berth with closed := false } } u

/-- R138, R171: RELEASE_BERTH with a body is refused RANGE. With none it is refused CONTACT with the debounced contact
open, then WIND without calm; while RUNNING it is accepted and changes nothing; and otherwise every cause leaves the set,
the berth becomes RUNNING with a BERTH report RELEASED, and only the evaluation of every crane and a dispatch pass follow,
in this order (assumption 9, DEDUCED); where no crane may be released to and no job is queued no more is reported. -/
def Obligations.ReleaseBerthTested : Prop :=
  ∀ (s : State) (t : Telegram), ToPart s t Config.kReleaseBerth →
    (t.body ≠ [] → exec .releaseBerth s = .next (answeredOnly s t .range)) ∧
    (t.body = [] → s.berth.state = .running → exec .releaseBerth s = .next (answeredOnly s t .accepted)) ∧
    (t.body = [] → s.berth.state ≠ .running → s.berth.closed = false →
      exec .releaseBerth s = .next (answeredOnly s t .contact)) ∧
    (t.body = [] → s.berth.state ≠ .running → s.berth.closed = true →
      (∃ c, s.berth.calmStart = some c ∧ age s.clock c < par s Config.CALM_INTERVAL) →
      exec .releaseBerth s = .next (answeredOnly s t .wind)) ∧
    (t.body = [] → s.berth.state ≠ .running → s.berth.closed = true →
      (∀ c, s.berth.calmStart = some c → par s Config.CALM_INTERVAL ≤ age s.clock c) →
      let w := { s with berth := { s.berth with state := .running, causes := ⟨false, false, false⟩ } }
      let v := report (.berth (.released s.berth.state s.berth.causes)) w
      let u := { dispatchPass (evaluateMany cranes v) with uplink := answeredUplink s.uplink t .accepted [] none }
      exec .releaseBerth s = .next u ∧ WorkFrame w u ∧
        ((∀ k : CraneNo, releaseCondition w k = false) → s.jobs = [] → u.reports = v.reports))

/-! ### Release -/

/-- R27: the release condition holds when all of its seven parts are true; where it does not hold an evaluation releases
no move. That such an evaluation still withdraws the crane's stale requests, and does nothing else, is the model's reading
of R90 with R28 (assumption 12, DEDUCED). -/
def Obligations.ReleaseOnlyUnderTheCondition : Prop :=
  ∀ (s : State) (k : CraneNo),
    (releaseCondition s k = true ↔
      (s.cranes[k]).mode = .inService ∧ (s.cranes[k]).held = false ∧
        (∀ d, (s.cranes[k]).directive = some d → d.kind ≠ .withdraw) ∧ (s.cranes[k]).fault = false ∧
        stationState s (.crane k) = .active ∧ s.berth.state = .running ∧ (s.cranes[k]).staged = none) ∧
    (releaseCondition s k = false → evaluateOnce k s = withoutStale k s ∧ evaluate k s = withoutStale k s)

/-- Position `x` is claimed by the move: that of a bay that one of its legs names (R33). -/
def Claims (s : State) (r : MoveRecord) (x : Nat) : Prop :=
  ∃ n z b, Touches r n z ∧ BayAt s n b ∧ b.position = x

/-- Position `x` is one of the move claims of crane `j`: those of its ACTIVE and STAGED moves (R33). -/
def CraneClaims (s : State) (j : CraneNo) (x : Nat) : Prop :=
  ∃ r ∈ s.queues[j], (r.state = .active ∨ r.state = .staged) ∧ Claims s r x

/-- Crane `j` takes part in the test as an idle crane: in the roster, with neither an ACTIVE nor a STAGED move (R33). -/
def IdleCrane (s : State) (j : CraneNo) : Prop :=
  (s.cranes[j]).mode ≠ .absent ∧ ∀ r ∈ s.queues[j], r.state ≠ .active ∧ r.state ≠ .staged

/-- R33, R34: a candidate passes the clearance test exactly when the positions of the bays it names clear, by SEP, those of
the ACTIVE and STAGED moves of every in-roster crane on both sides, and the last position of the nearest crane with neither
on each side. Positions are compared as integers, and equality passes. -/
def Obligations.ClearanceTestMeansSeparation : Prop :=
  ∀ (s : State) (k : CraneNo) (r : MoveRecord),
    clearance s k r = true ↔
      (∀ j : CraneNo, (s.cranes[j]).mode ≠ .absent → j < k →
        ∀ x y, CraneClaims s j x → Claims s r y → (x : Int) + par s Config.SEP ≤ y) ∧
      (∀ j : CraneNo, (s.cranes[j]).mode ≠ .absent → k < j →
        ∀ x y, CraneClaims s j x → Claims s r y → (y : Int) + par s Config.SEP ≤ x) ∧
      (∀ j : CraneNo, IdleCrane s j → j < k → (∀ i : CraneNo, IdleCrane s i → i < k → i ≤ j) →
        ∀ x y, (s.cranes[j]).position = some x → Claims s r y → (x : Int) ≤ y - par s Config.SEP) ∧
      (∀ j : CraneNo, IdleCrane s j → k < j → (∀ i : CraneNo, IdleCrane s i → k < i → j ≤ i) →
        ∀ x y, (s.cranes[j]).position = some x → Claims s r y → (y : Int) + par s Config.SEP ≤ x)

/-- R30, R31, R88: the candidate search takes the moves of the window in queue order. A move passes that is READY, is a
RESTOW or holds a slot or finds a lane (R85), and passes the clearance test. Where none passes nothing is released, and
nothing changes but by a request. A request is raised for the first READY move that seeks a lane and finds none, among the
moves that the search takes, on the lowest lane that the other crane owns, where the crane has none standing. R32, R15,
R86: the first that passes is released: where the active slot is empty to ACTIVE, at the head of its queue, with its
activation time, its first event and its hold-overlap flag, the defer timer stopped and the WAIT mark cleared; where it is
filled to STAGED, behind the ACTIVE move; a slot is reserved for it in the lane found where it needs one, its own request
withdrawn; and agreement is tested. R28, R32, R56: an evaluation under the release condition withdraws stale requests,
searches and releases, and after a through release searches once more, and then makes the call check of the activation.
That stale requests are withdrawn once, at the start, and not again before the second search is the model's reading
(assumption 12, DEDUCED), and that one evaluation follows the reservations of the call check its choice (assumption 31).
-/
def Obligations.CandidateSearchReleasesTheFirst : Prop :=
  ∀ (s : State) (k : CraneNo),
    let needs := fun r : MoveRecord => r.kind ≠ .restow ∧ r.lane = none
    let passes := fun r : MoveRecord => r.state = .ready ∧ (needs r → ∃ l, FindsLane s k l) ∧ clearance s k r = true
    let t := searchAndRelease k s
    (∀ l, laneFound s k = some l ↔ FindsLane s k l) ∧
    ((∀ r ∈ windowOf s k, ¬passes r) →
      t = { s with lanes := t.lanes } ∧ RequestsRaised k (windowOf s k) s t ∧
      ∀ l : LaneNo, t.lanes[l] = { s.lanes[l] with request := (t.lanes[l]).request }) ∧
    (∀ (p : List MoveRecord) (r : MoveRecord) (q : List MoveRecord), windowOf s k = p ++ r :: q →
      (∀ x ∈ p, ¬passes x) → passes r → ((s.queues[k]).map (·.number)).Nodup →
      let rest := (s.queues[k]).filter fun x => decide (x.number ≠ r.number)
      let lane := if r.kind ≠ .restow ∧ r.lane = none then laneFound s k else r.lane
      let called := if r.kind ≠ .restow ∧ r.lane = none then false else r.called
      (∀ l, needs r → FindsLane s k l → (t.lanes[l]).slot = .reserved r.number ∧
        (SharedBy s k l → (s.lanes[l]).owner = none → (t.lanes[l]).owner = some k) ∧
        ∀ m : LaneNo, t.lanes[m] = { s.lanes[m] with
          slot := (t.lanes[m]).slot
          owner := (t.lanes[m]).owner
          request := (s.lanes[m]).request.filter fun q => decide (q ≠ ⟨k, r.number⟩) } ∧
          (m ≠ l → (t.lanes[m]).slot = (s.lanes[m]).slot ∧ (t.lanes[m]).owner = (s.lanes[m]).owner)) ∧
      (¬needs r → RequestsRaised k p s t ∧
        ∀ l : LaneNo, t.lanes[l] = { s.lanes[l] with request := (t.lanes[l]).request }) ∧
      (t.cranes[k]).jobMark = agreement t k ∧
      ((s.cranes[k]).active = none →
        queueNumbers t k = r.number :: rest.map (·.number) ∧
        findIn t k r.number = some { r with
          state := .active, activation := some s.clock, progress := some ⟨r.kind.first, false, false⟩
          holdOverlap := decide (s.berth.state ≠ .running) || (s.cranes[k]).held, lane := lane, called := called } ∧
        t.cranes[k] = { s.cranes[k] with
          active := some r.number, deferStart := none, waitMark := none, jobMark := (t.cranes[k]).jobMark }) ∧
      ((s.cranes[k]).active.isSome →
        queueNumbers t k = (rest.takeWhile fun x => decide (x.state = .active)).map (·.number) ++
          r.number :: (rest.dropWhile fun x => decide (x.state = .active)).map (·.number) ∧
        findIn t k r.number = some { r with state := .staged, lane := lane, called := called } ∧
        t.cranes[k] = { s.cranes[k] with staged := some r.number, jobMark := (t.cranes[k]).jobMark })) ∧
    (releaseCondition s k = true →
      let u := searchAndRelease k (withoutStale k s)
      evaluateOnce k s =
        if (s.cranes[k]).active = none ∧ (u.cranes[k]).active.isSome then searchAndRelease k u else u) ∧
    (let u := evaluateOnce k s;
      ((s.cranes[k]).active.isSome ∨ (u.cranes[k]).active = none → evaluate k s = u) ∧
      ((s.cranes[k]).active = none → (u.cranes[k]).active.isSome → CallChecked k u (evaluate k s)))

/-- R38: a test of agreement sets the JOBLIST mark alone: to EMPTY where the reported view names a number that is not in
the pool (this reading against TABLE 18 is the model's, assumption 7, DEDUCED), else to clear where the view and the slots
are the same, and else, or with no view reported, to FULL. R44, TABLE 17: the blocking reason is the first that applies,
in the order of the table: an empty window; a part of the release condition apart from the staged slot; then, for the
first move of the window alone, its pending cause, no lane found, or the clearance. -/
def Obligations.AgreementAndBlockingReason : Prop :=
  ∀ (s : State) (k : CraneNo),
    let c := s.cranes[k]
    let known := fun n : MoveNo => n ∈ (pool s).map (·.number)
    testAgreement k s = { s with cranes := s.cranes.set k { c with jobMark := agreement s k } } ∧
    (c.view = none → agreement s k = .full) ∧
    (∀ v, c.view = some v →
      let unknown := ∃ n, (v.active = some n ∨ v.staged = some n) ∧ ¬known n
      let same := v.active = c.active ∧ v.staged = c.staged
      (unknown → agreement s k = .empty) ∧ (¬unknown → same → agreement s k = .clear) ∧
      (¬unknown → ¬same → agreement s k = .full)) ∧
    (windowOf s k = [] → blockReason s k = .queueEmpty) ∧
    ∀ (r : MoveRecord) (q : List MoveRecord), windowOf s k = r :: q →
      let held := c.mode ≠ .inService ∨ c.held = true ∨ (∃ d, c.directive = some d ∧ d.kind = .withdraw) ∨
        c.fault = true ∨ stationState s (.crane k) ≠ .active ∨ s.berth.state ≠ .running
      let lashed := ∃ n, Touches r n .deck ∧ ∀ x, BayAt s n x → (s.areas[x.area]).deck ≠ .opened
      let ganged := ∃ a, PointIn s r a ∧ (s.areas[a]).gang ≠ none
      let needs := r.kind ≠ .restow ∧ r.lane = none
      (held → blockReason s k = .craneHeld) ∧
      (¬held → r.state = .pending → r.afterMove.isSome → blockReason s k = .precedence) ∧
      (¬held → r.state = .pending → r.afterMove = none → lashed → blockReason s k = .lashing) ∧
      (¬held → r.state = .pending → r.afterMove = none → ¬lashed → ganged → blockReason s k = .gang) ∧
      (¬held → r.state = .ready → needs → (∀ l, ¬FindsLane s k l) → blockReason s k = .lane) ∧
      (¬held → r.state = .ready → (needs → ∃ l, FindsLane s k l) → blockReason s k = .clearance)

/-! ### Cycle times and call-forward -/

/-- R50: a smoothed time moves by D·w/16 to the nearest integer, ties away from zero, where D is 16 times the clamped
measurement less the old value; it moves towards the measurement and never past it; and it stays within 16 times
CYCLE_MIN and CYCLE_MAX. -/
def Obligations.SmoothingMovesTowardsTheMeasurement : Prop :=
  ∀ (s : State) (old m : Nat), 1 ≤ par s Config.SMOOTH_WEIGHT → par s Config.SMOOTH_WEIGHT ≤ 16 →
    par s Config.CYCLE_MIN ≤ par s Config.CYCLE_MAX →
    16 * par s Config.CYCLE_MIN ≤ old → old ≤ 16 * par s Config.CYCLE_MAX →
    let target := 16 * clamp (par s Config.CYCLE_MIN) (par s Config.CYCLE_MAX) m
    let d : Int := (target : Int) - old
    (∃ c : Int, (smooth s old m : Int) = old + c ∧ |32 * c - 2 * (d * par s Config.SMOOTH_WEIGHT)| ≤ 16 ∧
      (|32 * c - 2 * (d * par s Config.SMOOTH_WEIGHT)| = 16 → |2 * (d * par s Config.SMOOTH_WEIGHT)| < |32 * c|)) ∧
    min old target ≤ smooth s old m ∧ smooth s old m ≤ max old target

/-- A move's lane need (R54). -/
def NeedsLane (r : MoveRecord) : Prop :=
  match r.kind with
  | .restow => False
  | .discharge | .dual => True
  | .load => r.state ≠ .active ∨ ∃ p, r.progress = some p ∧ p.next = .pickL

/-- R53, R55: the ahead time of a horizon move is 0 for the ACTIVE move, and for any other the remainder of the ACTIVE move,
never below 0, with the expected times (R52) of the non-ACTIVE moves before it. R57 step 1, R86: a move with a lane need
that holds no slot is reserved the lane that the order of selection finds, and nothing else changes but the owner of an
unowned shared lane and a request that named the move; R88: where no lane is found a request is raised on the lowest shared
lane that the other crane owns, if the crane has none standing. R57 step 2, R58: a RESERVED slot whose ahead time is no
greater than the travel time and CALL_MARGIN is called, with a TRUCK_CALL of the boxes to bring and the gate marked. R54:
a move without a lane need is passed over. R90, R57: a call check withdraws stale requests and takes both steps for each
move of the horizon in order. The model's choices: that stale requests are withdrawn once, at the start of a check that is
made (assumption 12, DEDUCED), that one evaluation follows, after the last move, where a slot was reserved (assumption 31),
and that the command does nothing where the check is not due (assumption 3). -/
def Obligations.CallCheckTakesTheHorizon : Prop :=
  ∀ (s : State) (k : CraneNo),
    let expect := fun r : MoveRecord => (if r.kind = .dual then (s.cycles[k]).dual else (s.cycles[k]).single) / 16
    let ahead := aheadTimes s k (remainder s k) (horizonOf s k)
    ((s.cranes[k]).active = none → remainder s k = 0) ∧
    (∀ n r a, (s.cranes[k]).active = some n → findIn s k n = some r → r.activation = some a →
      remainder s k = expect r - age s.clock a) ∧
    (ahead.length = (horizonOf s k).length ∧ ∀ (p : List MoveRecord) (r : MoveRecord) (q : List MoveRecord),
      horizonOf s k = p ++ r :: q →
      ahead[p.length]? = some (r.number, if r.state = .active then 0
        else remainder s k + ((p.filter fun x => decide (x.state ≠ .active)).map expect).sum)) ∧
    (∀ (n : MoveNo) (r : MoveRecord) (a : Nat), findIn s k n = some r →
      (¬NeedsLane r → checkCall k n a (checkReserve k n s) = s) ∧
      (NeedsLane r → r.lane.isSome → checkReserve k n s = s) ∧
      (∀ l, NeedsLane r → r.lane = none → FindsLane s k l →
        let t := checkReserve k n s
        (t.lanes[l]).slot = .reserved n ∧
        (t.lanes[l]).owner = (if (s.lanes[l]).owner = none then if (s.lanes[l]).use = .home k then none else some k
          else (s.lanes[l]).owner) ∧
        (∀ m : LaneNo, t.lanes[m] = { s.lanes[m] with
          slot := (t.lanes[m]).slot
          owner := (t.lanes[m]).owner
          request := (s.lanes[m]).request.filter fun q => decide (q ≠ ⟨k, n⟩) } ∧
          (m ≠ l → (t.lanes[m]).slot = (s.lanes[m]).slot ∧ (t.lanes[m]).owner = (s.lanes[m]).owner)) ∧
        t = modMove n (fun x => { x with lane := some l, called := false }) { s with lanes := t.lanes }) ∧
      (NeedsLane r → r.lane = none → (∀ l, ¬FindsLane s k l) →
        (HasStanding s k ∨ (∀ l, ¬OwnedByOther s k l) → checkReserve k n s = s) ∧
        (∀ l : LaneNo, ¬HasStanding s k → OwnedByOther s k l → (∀ m < l, ¬OwnedByOther s k m) →
          checkReserve k n s =
            { s with lanes := s.lanes.set l { s.lanes[l] with request := some ⟨k, n⟩ } })) ∧
      (∀ l : LaneNo, NeedsLane r → r.lane = some l →
        let ids := if r.kind = .discharge then [] else
          (r.legs.take 1).flatMap fun x => x.box1.identifier :: (x.box2.map (·.identifier)).toList
        let due := (s.lanes[l]).slot = .reserved n ∧ a ≤ (s.lanes[l]).travel + par s Config.CALL_MARGIN
        (due → checkCall k n a s = report (.truckCall l n a ids)
          (modMove n (fun x => { x with called := true }) (slotWritten l (.called n) s))) ∧
        (¬due → checkCall k n a s = s))) ∧
    (s.resetAsserted = false →
      (s.clock = 0 ∨ s.clock.toNat % 10 ≠ 0 → exec (.periodicCallCheck k) s = .next s) ∧
      (s.clock ≠ 0 → s.clock.toNat % 10 = 0 → ∃ t, exec (.periodicCallCheck k) s = .next t ∧ CallChecked k s t))

/-- R56, R57, R58: a periodic call check of a crane that is not IN_SERVICE, is SILENT, or stands while the berth is not
RUNNING does nothing; any other keeps within the frame of evaluations and call checks; and for a crane whose one move is
ACTIVE with a lane need and a RESERVED slot, it moves the slot to CALLED with the ahead time 0, marks the gate, and
reports TRUCK_CALL, and does nothing else. -/
def Obligations.PeriodicCallCheckCalls : Prop :=
  ∀ (k : CraneNo) (s : State), s.resetAsserted = false → s.clock ≠ 0 → s.clock.toNat % 10 = 0 →
    (¬((s.cranes[k]).mode = .inService ∧ stationState s (.crane k) ≠ .silent ∧ s.berth.state = .running) →
      exec (.periodicCallCheck k) s = .next s) ∧
    (∃ t, exec (.periodicCallCheck k) s = .next t ∧ WorkFrame s t ∧ t.uplink = s.uplink) ∧
    (∀ (r : MoveRecord) (l : LaneNo), (s.cranes[k]).mode = .inService → stationState s (.crane k) ≠ .silent →
      s.berth.state = .running → s.queues[k] = [r] → r.state = .active → laneNeed r = true → r.lane = some l →
      (s.lanes[l]).slot = .reserved r.number → (s.lanes[l]).use ≠ .unused → 1 ≤ par s Config.CALL_DEPTH →
      (∀ (l' : LaneNo) (q : Request), (s.lanes[l']).request = some q → q.crane ≠ k) →
      ∃ t, exec (.periodicCallCheck k) s = .next t ∧
        (∀ j : LaneNo, t.lanes[j] = if j = l then { s.lanes[l] with slot := .called r.number } else s.lanes[j]) ∧
        t.queues[k] = [{ r with called := true }] ∧
        (∀ u : GateNo, t.gateMarks[u] = if u = gateOf l then true else s.gateMarks[u]) ∧
        t.reports = (report (.truckCall l r.number 0 (boxesToBring r)) s).reports ∧
        t.cranes = s.cranes ∧ t.areas = s.areas ∧ t.jobs = s.jobs ∧ t.gangs = s.gangs ∧ t.freeCount = s.freeCount ∧
        WorkFrame s t ∧ t.uplink = s.uplink)

/-- R43: at the expiry of the defer timer the timer is stopped and the crane is evaluated, and a WAIT mark with the
blocking reason found then is set where its active slot then stands empty; so where the release condition does not hold
and the active slot is empty, the WAIT mark with the blocking reason is all that follows, but for the crane's stale
requests, which every evaluation withdraws (assumption 12, DEDUCED). That the command changes nothing for a timer that has
not reached DEFER_LIMIT is the model's choice (assumption 3). -/
def Obligations.DeferTimerExpires : Prop :=
  ∀ (k : CraneNo) (s : State), s.resetAsserted = false →
    (∀ c, (s.cranes[k]).deferStart = some c → par s Config.DEFER_LIMIT ≤ age s.clock c →
      (let t := evaluate k (modCrane k (fun x => { x with deferStart := none }) s);
        exec (.deferTimerExpiry k) s = .next
          (if (t.cranes[k]).active.isSome then t
            else modCrane k (fun x => { x with waitMark := some (blockReason t k) }) t) ∧
        (t.cranes[k]).deferStart = none) ∧
      (releaseCondition s k = false → (s.cranes[k]).active = none →
        exec (.deferTimerExpiry k) s = .next
          (modCrane k (fun x => { x with deferStart := none, waitMark := some (blockReason s k) }) (withoutStale k s))) ∧
      (releaseCondition s k = false → (s.cranes[k]).active.isSome →
        exec (.deferTimerExpiry k) s = .next (modCrane k (fun x => { x with deferStart := none }) (withoutStale k s)))) ∧
    ((∀ c, (s.cranes[k]).deferStart = some c → age s.clock c < par s Config.DEFER_LIMIT) →
      exec (.deferTimerExpiry k) s = .next s)

/-! ### Lanes -/

/-- R89: a FREE lane with a request pending is handed over: the requesting crane becomes the owner and the request is
removed. Where the named move no longer needs a slot nothing else changes; where it does, it is reserved in the lane,
every request that names it is withdrawn, and its crane is evaluated; and where its crane then meets no release condition
the evaluation that is told of it releases nothing and only withdraws the crane's stale requests (assumption 12, DEDUCED).
That a HANDOVER of a lane not due changes nothing is the model's choice (assumption 3). -/
def Obligations.HandoverPassesOwnership : Prop :=
  ∀ (l : LaneNo) (s : State), s.resetAsserted = false →
    (∀ (b : Bool) (q : Request), (s.lanes[l]).slot = .free b → (s.lanes[l]).request = some q →
      let u := modLane l (fun x => { x with owner := some q.crane, request := none }) s
      ((∀ r, findIn s q.crane q.move = some r → r.lane.isSome ∨ ¬NeedsLane r) →
        exec (.handover l) s = .next u) ∧
      (∃ t, exec (.handover l) s = .next t ∧ (t.lanes[l]).owner = some q.crane ∧ WorkFrame u t ∧
        t.uplink = s.uplink) ∧
      (∀ r, findIn s q.crane q.move = some r → r.lane = none → NeedsLane r →
        let w := modMove q.move (fun x => { x with lane := some l, called := false }) { s with
          lanes := Vector.ofFn fun m => { s.lanes[m] with
            slot := if m = l then .reserved q.move else (s.lanes[m]).slot
            owner := if m = l then some q.crane else (s.lanes[m]).owner
            request := (s.lanes[m]).request.filter fun x => decide (x ≠ q) } }
        exec (.handover l) s = .next (evaluate q.crane w)) ∧
      (∀ r, findIn s q.crane q.move = some r → r.lane = none → NeedsLane r →
        releaseCondition s q.crane = false →
        ∃ t, exec (.handover l) s = .next t ∧ (t.lanes[l]).slot = .reserved q.move ∧
          findIn t q.crane q.move = some { r with lane := some l, called := false })) ∧
    ((∀ b, (s.lanes[l]).slot ≠ .free b) ∨ (s.lanes[l]).request = none → exec (.handover l) s = .next s)

/-- R93, TABLE 30, R97: what a rise and a fall of filtered presence do to a slot, row by row. -/
def Obligations.PresenceActsOnSlot : Prop :=
  ∀ (l : LaneNo) (s : State) (m : MoveNo),
    ((s.lanes[l]).slot = .free false →
      presenceRise l s = (if (s.lanes[l]).use = .unused then slotWritten l (.free true) s
        else report (.lane (.stray l)) (slotWritten l (.free true) s)) ∧ presenceFall l s = s) ∧
    ((s.lanes[l]).slot = .free true → presenceRise l s = s ∧ presenceFall l s = slotWritten l (.free false) s) ∧
    ((s.lanes[l]).slot = .reserved m → presenceRise l s = slotWritten l (.arrived m) s ∧ presenceFall l s = s) ∧
    ((s.lanes[l]).slot = .called m → presenceRise l s = slotWritten l (.arrived m) s ∧ presenceFall l s = s) ∧
    ((s.lanes[l]).slot = .arrived m → presenceRise l s = s ∧
      presenceFall l s = report (.lane (.leftEarly l m)) (slotWritten l (.called m) s)) ∧
    ((s.lanes[l]).slot = .worked → presenceRise l s = s ∧ presenceFall l s = slotWritten l (.free false) s)

/-- R91: a raw level that agrees with the filtered presence clears the candidate; one that differs sets a candidate to the
quay clock where none stands; and a candidate whose age is at least the settle time gives the filtered presence the raw
one, is cleared, and lets the rise or fall act on the slot (R93). The lane's polarity turns the level into presence. R94:
a slot that is then WORKED with presence absent and no candidate becomes FREE, with its gate marked. Nothing else of the
lane or of another lane changes. R91 also: a reply of two levels is taken for the even lane and then for the odd lane, and
one that is no pair of levels 0 or 1 is reported BAD_REPLY and changes nothing. -/
def Obligations.PresenceFilterSettles : Prop :=
  (∀ (l : LaneNo) (level : Bool) (s : State),
    let x := s.lanes[l]
    let raw := if x.activeLow then !level else level
    let start := x.candidate.getD s.clock
    let put := fun y : Lane => { s with lanes := s.lanes.set l y }
    let settled := put { x with present := raw, candidate := none }
    let t :=
      if raw = x.present then put { x with candidate := none }
      else if x.settle ≤ age s.clock start then if raw then presenceRise l settled else presenceFall l settled
      else put { x with candidate := some start }
    gateLane l level s =
      if (t.lanes[l]).slot = .worked ∧ (t.lanes[l]).present = false ∧ (t.lanes[l]).candidate = none then
        slotWritten l (.free false) t
      else t) ∧
  ∀ (u : GateNo) (s : State) (body : List Byte) (e o : LaneNo), e.val = 2 * u.val → o.val = 2 * u.val + 1 →
    (∀ a b : Bool, body = [if a then 1 else 0, if b then 1 else 0] →
      gateStatus u body s = gateLane o b (gateLane e a s)) ∧
    ((∀ a b : Bool, body ≠ [if a then 1 else 0, if b then 1 else 0]) →
      gateStatus u body s = report (.lane (.badReply u)) s)

/-- R95, TABLE 31: a slot released from its move goes from RESERVED or CALLED to FREE and from ARRIVED to WORKED, with a
TRUCK_CANCEL of the cause for a called slot, not sent away, and for an arrived one, sent away; the move's hold and call
issued are cleared, and the gate is marked where the signal changes (R97). A slot that is FREE or WORKED is not released.
R96: slots released for one cause are released in ascending lane number, and no others change. R20, R21, R6: the voiding of
a move releases the slot that it holds with the cause VOIDED, empties the staged slot where the move is STAGED, takes the
record out of the pool and its queue, where the records behind it close up, makes the after-moves that named it absent,
withdraws the requests that name it, and offers a MOVE_STATE report, after the TRUCK_CANCEL (assumption 10) and the reports
of the areas that change. -/
def Obligations.SlotReleasedByItsState : Prop :=
  (∀ (c : ReleaseCause) (s : State) (l : LaneNo),
    let x := (s.lanes[l]).slot
    (x.move = none → releaseSlot c s l = s) ∧
    (∀ m, x.move = some m → releaseSlot c s l = offered (cancelReport l c x)
      (modMove m (fun r => { r with lane := none, called := false }) (slotWritten l (releasedSlot x) s)))) ∧
  (∀ (c : ReleaseCause) (p : CraneNo → MoveRecord → Bool) (s : State),
    (∀ k r l, p k { r with lane := l, called := false } = p k r) →
    let freed := fun l : LaneNo => (((s.lanes[l]).slot.move.bind (findMove s)).map fun y => p y.1 y.2).getD false
    let t := releaseSlots c p s
    (∀ l : LaneNo, t.lanes[l] = { s.lanes[l] with
      slot := if freed l then releasedSlot (s.lanes[l]).slot else (s.lanes[l]).slot }) ∧
    t.reports = (offered (lanes.flatMap fun l => if freed l then cancelReport l c (s.lanes[l]).slot else []) s).reports ∧
    t = { s with lanes := t.lanes, queues := t.queues, gateMarks := t.gateMarks, reports := t.reports }) ∧
  ∀ (k : CraneNo) (r : MoveRecord) (c : MoveCause) (s : State),
    let t := voidRecord k r c s
    (∀ m : LaneNo, t.lanes[m] = { s.lanes[m] with
      slot := if r.lane = some m then releasedSlot (s.lanes[m]).slot else (s.lanes[m]).slot
      request := (s.lanes[m]).request.filter fun q => decide (q.move ≠ r.number) }) ∧
    (∀ j : CraneNo, t.cranes[j] = if j = k ∧ r.state = .staged then { s.cranes[k] with staged := none } else s.cranes[j]) ∧
    (∀ j : CraneNo, queueNumbers t j =
      if j = k then (queueNumbers s k).filter fun n => decide (n ≠ r.number) else queueNumbers s j) ∧
    (∀ x ∈ pool t, x.afterMove ≠ some r.number) ∧ (∃ v, t = report (.moveState r.number k c) v) ∧
    (t.areas = s.areas → t.reports = (offered ((r.lane.elim [] fun l => cancelReport l .voided (s.lanes[l]).slot) ++
      [.moveState r.number k c]) s).reports)

/-! ### The uplink port -/

/-- The uplink after a telegram that began with mark `m` was discarded for cause `f`: the latch is set, a LINE report
offered, and the receiver stands as given. -/
def discardedFor (f : LineFault) (m : Byte) (r : Receiver) (s : State) : State :=
  { s with
    uplink := { s.uplink with receiver := r, latches := s.uplink.latches.set f.index true }
    reports := (report (.line (.uplink f (some m))) s).reports }

/-- R157: in HUNTING an error-free character whose mark bit is 1 starts a telegram, whatever mark it carries; any other
character is discarded without a report. R155, R158, R159: a telegram that ends with its check right joins the tail of
the inbound queue where that holds fewer than 8, and the ready output is negated where it then holds 6 or more; with 8 in
the queue it is discarded with the OVERFLOW latch and a LINE report. The receiver then hunts, either way. R157: each way
of discarding a telegram sets its latch and offers a LINE report with its cause and the mark; the receiver returns to
HUNTING, but stays in COLLECTING with the new telegram after a new mark character. A character can have a parity error
only where parity is in use, and the length error is a length above 120. That a latch is set also where the full report
queue drops the LINE report, OVERFLOW among them, is the model's reading (assumption 18, DEDUCED). -/
def Obligations.ReceiverTakesAndDiscards : Prop :=
  (∀ s : State, s.resetAsserted = false → s.uplink.breaking = false →
    (∀ c : RxChar, s.uplink.receiver = .hunting →
      exec (.uplinkMarkCharacter c) s = .next
        (if c.mark = true ∧ c.stop = true ∧ parityError s.uplink.settings c = false then
          { s with uplink := { s.uplink with receiver := .collecting c.data } }
        else s)) ∧
    ∀ (m kind sequence : Byte) (body : List Byte), s.uplink.receiver = .collecting m → body.length ≤ 120 →
      (s.uplink.inbound.length < 8 →
        exec (.uplinkTelegramComplete kind sequence body (checkOf kind sequence body)) s = .next { s with
          uplink := { s.uplink with
            receiver := .hunting
            inbound := s.uplink.inbound ++ [⟨m, kind, sequence, body⟩]
            ready := if 6 ≤ s.uplink.inbound.length + 1 then false else s.uplink.ready } }) ∧
      (8 ≤ s.uplink.inbound.length →
        exec (.uplinkTelegramComplete kind sequence body (checkOf kind sequence body)) s = .next { s with
          uplink := { s.uplink with receiver := .hunting, latches := s.uplink.latches.set 5 true }
          reports := (report (.line (.uplink .overflow (some m))) s).reports })) ∧
  ∀ (m : Byte) (s : State), s.resetAsserted = false → s.uplink.breaking = false → s.uplink.receiver = .collecting m →
    exec (.uplinkTelegramDiscarded .framing) s = .next (discardedFor .framing m .hunting s) ∧
    (s.uplink.settings.parity ≠ .none →
      exec (.uplinkTelegramDiscarded .parity) s = .next (discardedFor .parity m .hunting s)) ∧
    (∀ n : Byte, 120 < n.toNat →
      exec (.uplinkTelegramDiscarded (.length n)) s = .next (discardedFor .length m .hunting s)) ∧
    (∀ c : RxChar, isMark s.uplink.settings c = true →
      exec (.uplinkTelegramDiscarded (.newMark c)) s = .next (discardedFor .incomplete m (.collecting c.data) s)) ∧
    (∀ (kind sequence : Byte) (body : List Byte) (x : BitVec 16), body.length ≤ 120 → x ≠ checkOf kind sequence body →
      exec (.uplinkTelegramDiscarded (.check kind sequence body x)) s = .next (discardedFor .check m .hunting s)) ∧
    exec .uplinkGap s = .next (discardedFor .incomplete m .hunting s)

/-- R164: a break drops the telegram being collected, empties the inbound queue and clears the latches, so that the ready
output is asserted; what was being sent is kept to be sent again, the response buffer and the settings stay, and a
RESTART report is offered. At the end of the break only the break itself ends. That a REPORT whose report is gone from the
queue is not kept to be sent again is the model's reading (assumption 19, DEDUCED). -/
def Obligations.BreakClearsTheLine : Prop :=
  ∀ s : State, s.resetAsserted = false →
    (s.uplink.breaking = false → ∃ x, exec .breakRecognised s = .next { s with
        uplink := { s.uplink with
          receiver := .hunting, inbound := [], ready := true, latches := Vector.replicate 6 false
          sending := none, cutOff := x, breaking := true }
        reports := (report .restartBreak s).reports } ∧
      (∀ t, s.uplink.sending = some (.response t) → x = some (.response t)) ∧
      (∀ t, s.uplink.sending = some (.report t) → (∃ r ∈ s.reports.queue, r.inHand = true) →
        x = some (.report t)) ∧
      (∀ t, s.uplink.sending = some (.report t) → (∀ r ∈ s.reports.queue, r.inHand = false) → x = none) ∧
      (s.uplink.sending = none → x = s.uplink.cutOff)) ∧
    exec .breakEnd s = .next { s with uplink := { s.uplink with breaking := false } }

/-- R162, R164, R168: the idle transmitter sends what a break cut off; else the RESPONSE; else, while no RESPONSE has yet
to be placed, the first to join of the reports of the highest level, as a REPORT with DEVICE_MARK and its serial, and
that report stays in the queue. A transmitter that is sending, or stands in a break, starts nothing. R161, R162, R165,
R168: when a RESPONSE has been sent the buffer takes the RESPONSE that waits, if any, and new uplink settings that came
with it take effect; when a REPORT has been sent its report leaves the queue. -/
def Obligations.TransmitterSendsInOrder : Prop :=
  (∀ s : State, s.resetAsserted = false →
    (s.uplink.breaking = true ∨ s.uplink.sending.isSome → exec .transmitStart s = .next s) ∧
    (s.uplink.breaking = false → s.uplink.sending = none →
      (∀ x, s.uplink.cutOff = some x →
        exec .transmitStart s = .next { s with uplink := { s.uplink with sending := some x, cutOff := none } }) ∧
      (∀ r, s.uplink.cutOff = none → s.uplink.buffer = some r →
        exec .transmitStart s = .next { s with uplink := { s.uplink with
          sending := some (.response ⟨r.mark, 0x30, r.sequence, r.kind :: r.result.code :: r.data⟩) } }) ∧
      (s.uplink.cutOff = none → s.uplink.buffer = none → s.uplink.waiting.isSome ∨ s.reports.queue = [] →
        exec .transmitStart s = .next s) ∧
      (s.uplink.cutOff = none → s.uplink.buffer = none → s.uplink.waiting = none → s.reports.queue ≠ [] →
        ∃ (p q : List Report) (r : Report), s.reports.queue = p ++ r :: q ∧
          (∀ x ∈ p, x.level < r.level) ∧ (∀ x ∈ q, x.level ≤ r.level) ∧
          exec .transmitStart s = .next { s with
            reports := { s.reports with queue := p ++ { r with inHand := true } :: q }
            uplink := { s.uplink with
              sending := some (.report ⟨byte (par s Config.DEVICE_MARK), 0x31, r.serial, r.body⟩) } }))) ∧
  ∀ (s : State) (t : Telegram), s.resetAsserted = false → s.uplink.breaking = false →
    (s.uplink.sending = some (.response t) → ∃ u, exec .responseSent s = .next { s with uplink := u } ∧
      u.sending = none ∧ u.buffer = s.uplink.waiting ∧ u.waiting = none ∧ u.inbound = s.uplink.inbound ∧
      u.ready = s.uplink.ready ∧ u.latches = s.uplink.latches ∧ u.cutOff = s.uplink.cutOff ∧ u.breaking = false ∧
      (∀ r x, s.uplink.buffer = some r → r.settings = some x → u.settings = x ∧ u.receiver = .hunting) ∧
      (∀ r, s.uplink.buffer = some r → r.settings = none →
        u.settings = s.uplink.settings ∧ u.receiver = s.uplink.receiver)) ∧
    (s.uplink.sending = some (.report t) → exec .reportSent s = .next { s with
      reports := { s.reports with queue := s.reports.queue.filter fun r => !r.inHand }
      uplink := { s.uplink with sending := none } })

/-- R166, R167: a report offered to a queue of fewer than 64 joins it, with its class's level, the next serial and the
clock. Offered to a full queue it displaces the last to join among those of the lowest level not being sent, if that
level is below its own, and the displaced class is marked lost; otherwise it is dropped and its own class is marked
lost. A report that joins marks its class seen. -/
def Obligations.ReportQueueDisplacesTheLowest : Prop :=
  ∀ (i : Items) (s : State),
    let v := classLevel s i.cls
    let new : Report := ⟨i, v, s.reports.nextSerial, s.clock, false⟩
    (s.reports.queue.length < 64 → report i s = { s with reports := { s.reports with
        queue := s.reports.queue ++ [new]
        nextSerial := s.reports.nextSerial + 1
        seen := s.reports.seen.set i.cls true } }) ∧
    (64 ≤ s.reports.queue.length → (∀ r ∈ s.reports.queue, r.inHand = true ∨ v ≤ r.level) →
      report i s = { s with reports := { s.reports with lost := s.reports.lost.set i.cls true } }) ∧
    (∀ (p q : List Report) (x : Report), 64 ≤ s.reports.queue.length → s.reports.queue = p ++ x :: q →
      x.inHand = false → x.level < v → (∀ r ∈ s.reports.queue, r.inHand = true ∨ x.level ≤ r.level) →
      (∀ r ∈ q, r.inHand = true ∨ x.level < r.level) →
      report i s = { s with reports := { s.reports with
        queue := p ++ q ++ [new]
        nextSerial := s.reports.nextSerial + 1
        seen := s.reports.seen.set i.cls true
        lost := s.reports.lost.set x.items.cls true } })

/-- R170, TABLE 63: the body of a REPORT is its class, the quay clock at queueing in four bytes and the items of its class,
cause by cause; an absent area or crane is 0xFF and an absent move 0 (R156). R163: a PASS_UP carries the received kind,
mark, sequence and length and at most the first 116 bytes of the received body, and no clock. The codes are those of
TABLES 56 and 61. -/
def Obligations.ReportBodies : Prop :=
  (∀ (i : Items) (v : Nat) (n : Byte) (time : Clock) (h : Bool),
    let t := time.toNat
    let gives := fun (cls : Byte) (bs : List Byte) =>
      Report.body ⟨i, v, n, time, h⟩ = cls :: byte (t / 16777216) :: byte (t / 65536) :: byte (t / 256) :: byte t :: bs
    let two := fun x : Nat => [byte (x / 256), byte x]
    let num := fun m : MoveNo => two m.toNat
    let opt := fun m : Option MoveNo => two ((m.map (·.toNat)).getD 0)
    let flag := fun b : Bool => if b then (1 : Byte) else 0
    let job := fun j : Option Job => match j with
      | some j => [byte j.area.val, j.kind.code]
      | none => [0xFF, 0]
    (∀ l m a ids, i = .truckCall l m a ids → gives 0 ([byte l.val] ++ num m ++ two a ++ ids.flatten)) ∧
    (∀ l m x c, i = .truckCancel l m x c → gives 1 ([byte l.val] ++ num m ++ [flag x, c.code])) ∧
    (∀ b c x, i = .berth (.entered b c x) → gives 2 [1, b.code, c.code, x.code, 0xFF]) ∧
    (∀ b c x, i = .berth (.causeAdded b c x) → gives 2 [2, b.code, c.code, x.code, 0xFF]) ∧
    (∀ x, i = .berth (.toHeld x) → gives 2 [3, 2, 0, x.code, 0xFF]) ∧
    (∀ x k, i = .berth (.toHolding x k) → gives 2 [4, 1, 0, x.code, (k.map fun k => byte k.val).getD 0xFF]) ∧
    (∀ b x, i = .berth (.released b x) → gives 2 [5, b.code, 0, x.code, 0xFF]) ∧
    (∀ m k, i = .moveDone m k → gives 3 (num m ++ [byte k.val])) ∧
    (∀ m k c, i = .moveState m k c → gives 4 (num m ++ [byte k.val, c.code])) ∧
    (∀ k n d m, i = .directive k n d m .normal → gives 5 ([byte k.val, n, d.code] ++ opt m ++ [0, 0, 0])) ∧
    (∀ k n d m a, i = .directive k n d m (.silence a) →
      gives 5 ([byte k.val, n, d.code] ++ opt m ++ [1] ++ opt a)) ∧
    (∀ g, i = .gang g .signedOn → gives 6 [byte g.val, 1]) ∧
    (∀ g j, i = .gang g (.signedOff j) → gives 6 ([byte g.val, 2] ++ job j)) ∧
    (∀ g j, i = .gang g (.dispatched j) → gives 6 [byte g.val, 3, byte j.area.val, j.kind.code]) ∧
    (∀ g a, i = .gang g (.onArea a) → gives 6 [byte g.val, 4, byte a.val]) ∧
    (∀ g j b, i = .gang g (.done j b) → gives 6 [byte g.val, 5, byte j.area.val, j.kind.code, flag b]) ∧
    (∀ g j, i = .gang g (.cleared j) → gives 6 ([byte g.val, 6] ++ job j)) ∧
    (∀ g x e a z, i = .gang g (.eventFault x e a z) →
      gives 6 [byte g.val, 7, x, e.code, byte a.val, z.code, (z.job.map fun j => byte j.area.val).getD 0xFF]) ∧
    (∀ g x y, i = .gang g (.serialGap x y) → gives 6 [byte g.val, 8, x, y]) ∧
    (∀ g, i = .gang g .badReply → gives 6 [byte g.val, 9]) ∧
    (∀ a x y c, i = .area a x y c → gives 7 [byte a.val, x.code, y.code, c.code]) ∧
    (∀ l, i = .lane (.stray l) → gives 8 [byte l.val, 1, 0, 0]) ∧
    (∀ l m, i = .lane (.leftEarly l m) → gives 8 ([byte l.val, 2] ++ num m)) ∧
    (∀ l m, i = .lane (.presenceNotSeen l m) → gives 8 ([byte l.val, 3] ++ num m)) ∧
    (∀ u, i = .lane (.badReply u) → gives 8 [byte u.val, 4, 0, 0]) ∧
    (∀ x z, i = .stationSilent x z → gives 9 [x.mark, 1, z.code]) ∧
    (∀ x z, i = .stationReturned x z → gives 9 [x.mark, 2, z.code]) ∧
    (∀ k, i = .crane k .badReply → gives 10 [byte k.val, 1]) ∧
    (∀ k, i = .crane k .fault → gives 10 [byte k.val, 2]) ∧
    (∀ k, i = .crane k .faultCleared → gives 10 [byte k.val, 3]) ∧
    (∀ k x y, i = .crane k (.serialGap x y) → gives 10 [byte k.val, 4, x, y]) ∧
    (∀ k x e m a z, i = .crane k (.eventFault x e m a z) →
      gives 10 ([byte k.val, 5, x, e.code] ++ num m ++ opt a ++ [(z.map CraneEvent.code).getD 0])) ∧
    (∀ k m e c, i = .crane k (.boxLeft m e c) → gives 10 ([byte k.val, 6] ++ num m ++ [e.code] ++ c)) ∧
    (∀ k m, i = .crane k (.unknownMove m) → gives 10 ([byte k.val, 7] ++ num m)) ∧
    (∀ f m, i = .line (.uplink f m) → gives 11 [f.code, m.getD 0]) ∧
    (∀ m x, i = .line (.unusedMark m x) → gives 11 [7, m, x]) ∧
    (∀ m, i = .line (.forwardFull m) → gives 11 [8, m]) ∧
    (∀ m, i = .line (.forwardDiscarded m) → gives 11 [9, m]) ∧
    (∀ m f, i = .line (.fieldBad m f) → gives 11 ([10, m] ++ match f with
      | .framing => [1, 0]
      | .parity => [2, 0]
      | .length => [3, 0]
      | .incomplete => [4, 0]
      | .check => [5, 0]
      | .wrongMark x => [6, x]
      | .wrongKind x => [7, x])) ∧
    (i = .restartBreak → gives 13 [1]) ∧ (i = .restartCoord → gives 13 [2]) ∧
    (∀ m kind x body, i = .passUp m kind x body →
      Report.body ⟨i, v, n, time, h⟩ = [kind, m, x, byte body.length] ++ body.take 116)) ∧
  [ReleaseCause.voided, .withdrawn, .berthHold].map ReleaseCause.code = [1, 2, 3] ∧
  [MoveCause.voidedCancel, .voidedSkip, .abandoned].map MoveCause.code = [1, 2, 3] ∧
  [AreaCause.unlashQueued, .unlashWithdrawn, .lashQueued, .lashWithdrawn, .dispatched, .done, .returned, .loaded].map
    AreaCause.code = [1, 2, 3, 4, 5, 6, 7, 8] ∧
  [LineFault.framing, .parity, .length, .incomplete, .check, .overflow].map LineFault.code = [1, 2, 3, 4, 5, 6] ∧
  [BerthState.running, .holding, .held].map BerthState.code = [0, 1, 2] ∧
  [BerthCause.contact, .wind, .command].map BerthCause.code = [1, 2, 4] ∧
  (∀ a b c : Bool, (Causes.mk a b c).code = byte (a.toNat + 2 * b.toNat + 4 * c.toNat)) ∧
  [Deck.lashed, .unlashWait, .unlashing, .opened, .lashWait, .lashing].map Deck.code = [0, 1, 2, 3, 4, 5] ∧
  [JobKind.unlash, .lash].map JobKind.code = [1, 2] ∧ [GangEvent.onArea, .done].map GangEvent.code = [1, 2] ∧
  (∀ j, [GangState.off, .idle, .sent j, .working j].map GangState.code = [0, 1, 2, 3]) ∧
  [CraneEvent.pickV, .setV, .pickL, .setL].map CraneEvent.code = [1, 2, 3, 4] ∧
  [DirectiveKind.hold, .resume, .skip, .promote, .withdraw, .returnCrane].map DirectiveKind.code = [1, 2, 3, 4, 5, 6] ∧
  [StationState.unknown, .active, .silent].map StationState.code = [0, 1, 2]

/-! ### Orders -/

/-- R3, R4, TABLE 8: legs are valid for a kind exactly when they are as many as the kind has, each names only bays of the
bay map, and each has a box list of valid boxes: an identifier of eleven capital letters or digits and a mass of at most
700, and for two boxes both of 20 feet and within TWIN_MASS_LIMIT together. R12: a record is eligible exactly when it has
no after-move, each deck point lies in an area whose deck state is OPEN, and no gang is present on the area of any point;
its pending cause is the first of the three that fails. R13: an evaluated record is READY if eligible and PENDING if not; it
takes the quay clock as its ready time where it was not READY, and keeps its ready time otherwise: that it keeps it in
PENDING too is the model's reading (assumption 13, DEDUCED). -/
def Obligations.LegsValidAndMovesEligible : Prop :=
  (∀ (s : State) (kind : MoveKind) (legs : List Leg),
    let boxOk := fun b : Box => b.identifier.length = 11 ∧ b.mass ≤ 700 ∧ ∀ c ∈ b.identifier,
      (0x30 ≤ c.toNat ∧ c.toNat ≤ 0x39) ∨ (0x41 ≤ c.toNat ∧ c.toNat ≤ 0x5A)
    let mapped := fun n : Nat => ∃ (i : Fin 64) (x : BayRow), s.bays[i] = some x ∧ x.bay = n
    legsValid s kind legs = true ↔
      legs.length = (if kind = .dual then 2 else 1) ∧ ∀ l ∈ legs,
        mapped l.bay ∧ (∀ d b, l.restow = some d → d.toBay = some b → mapped b) ∧ boxOk l.box1 ∧
        ∀ b, l.box2 = some b → boxOk b ∧ l.box1.size = .ft20 ∧ b.size = .ft20 ∧
          l.box1.mass + b.mass ≤ par s Config.TWIN_MASS_LIMIT) ∧
  ∀ (s : State) (r : MoveRecord),
    let precedence := r.afterMove.isSome
    let lashing := ∃ n, Touches r n .deck ∧ ∀ x, BayAt s n x → (s.areas[x.area]).deck ≠ .opened
    let gang := ∃ a, PointIn s r a ∧ (s.areas[a]).gang ≠ none
    (eligible s r = true ↔ ¬precedence ∧ ¬lashing ∧ ¬gang) ∧
    (r.state ≠ .pending → pendingCause s r = none) ∧
    (r.state = .pending →
      (precedence → pendingCause s r = some .precedence) ∧
      (¬precedence → lashing → pendingCause s r = some .lashing) ∧
      (¬precedence → ¬lashing → gang → pendingCause s r = some .gang) ∧
      (¬precedence → ¬lashing → ¬gang → pendingCause s r = none)) ∧
    (eligible s r = true → evaluateRecord s r =
      { r with state := .ready, readyTime := if r.state = .ready then r.readyTime else some s.clock }) ∧
    (eligible s r = false → evaluateRecord s r = { r with state := .pending })

/-- R8: ORDER_ADD is refused STATE for an ABSENT crane; then RANGE for a malformed body, a move number 0, legs that the
kind or R4 does not admit, or a before-move that is not in the queue; then DUPLICATE for a number in the pool; then FULL
for a pool of 512 or a queue of 96. A refusal changes nothing else. That a malformed body is tested with the RANGE tests is
the model's choice (assumption 6). -/
def Obligations.OrderAddRefusedInSequence : Prop :=
  ∀ (s : State) (t : Telegram) (k : CraneNo), ToCrane s t k Config.kOrderAdd →
    ((s.cranes[k]).mode = .absent → exec .orderAdd s = .next (answeredOnly s t .state)) ∧
    ((s.cranes[k]).mode ≠ .absent → readAdd t.body = none → exec .orderAdd s = .next (answeredOnly s t .range)) ∧
    (∀ o, (s.cranes[k]).mode ≠ .absent → readAdd t.body = some o →
      let bad := o.number = 0 ∨ legsValid s o.kind o.legs = false ∨ ∃ b, o.beforeMove = some b ∧ b ∉ queueNumbers s k
      let twice := o.number ∈ (pool s).map (·.number)
      let full := 512 ≤ (pool s).length ∨ 96 ≤ (s.queues[k]).length
      (bad → exec .orderAdd s = .next (answeredOnly s t .range)) ∧
      (¬bad → twice → exec .orderAdd s = .next (answeredOnly s t .duplicate)) ∧
      (¬bad → ¬twice → full → exec .orderAdd s = .next (answeredOnly s t .full)))

/-- R5, R6, R9: an accepted ORDER_ADD is answered ACCEPTED and places one record with the planned part as given (its
after-move only where that move is in the pool) and the runtime part at its start: READY with the quay clock as ready time
where it is eligible, and PENDING without one otherwise. It stands at the tail, or directly before a PENDING or READY
before-move, or behind the STAGED and ACTIVE moves. Only the lashing tests and evaluations follow: they withdraw the LASH
jobs of areas gained and test the leading areas (R107, R104) in an order that is the model's choice (assumptions 33 and
34), and evaluate, once at the order's end, the cranes with a move made READY by an area opened (R14, R28), whether or not
it has become PENDING again by then (R114; assumption 9, DEDUCED). Where the release condition of the crane does not hold,
the record stands in that place after them, and all of it is as said but its state and ready time, which agree with the
areas as they then are: it is READY exactly where it is eligible, and its ready time is the quay clock where it has become
READY. That a record placed READY still has the quay clock as its ready time where the dispatch passes of the same order
have put it back to PENDING is the model's reading, since R5, R13 and R14 do not say what becomes of it (assumption 13,
DEDUCED). Where no area changes it is as it was placed. -/
def Obligations.OrderAddAccepted : Prop :=
  ∀ (s : State) (t : Telegram) (k : CraneNo) (o : AddOrder), ToCrane s t k Config.kOrderAdd →
    (s.cranes[k]).mode ≠ .absent → readAdd t.body = some o → o.number ≠ 0 → legsValid s o.kind o.legs = true →
    (∀ b, o.beforeMove = some b → b ∈ queueNumbers s k) → o.number ∉ (pool s).map (·.number) →
    (pool s).length < 512 → (s.queues[k]).length < 96 →
    let r := newRecord s o
    let q := placeNew r o.beforeMove s.queues[k]
    let v := tellRelease s { s with queues := s.queues.set k q }
    let w := deckPointsGained (deckAreas v r) v
    let u := { evaluateMany (newlyReady v w) (queueChanged k w) with
      uplink := answeredUplink s.uplink t .accepted [] none }
    exec .orderAdd s = .next u ∧
    r = { number := o.number, kind := o.kind, legs := o.legs, afterMove := o.afterMove.filter (inPool s)
          state := if eligible s r then .ready else .pending, lane := none, called := false
          readyTime := if eligible s r then some s.clock else none
          activation := none, progress := none, holdOverlap := false, abandoned := false } ∧
    (o.beforeMove = none → q = s.queues[k] ++ [r]) ∧
    (∀ b x, o.beforeMove = some b → findIn s k b = some x → x.busy = false →
      (∀ y ∈ s.queues[k], y.number = b → y = x) →
      q = (s.queues[k]).takeWhile (fun y => decide (y.number ≠ b)) ++ r ::
        (s.queues[k]).dropWhile (fun y => decide (y.number ≠ b))) ∧
    (∀ b x, o.beforeMove = some b → findIn s k b = some x → x.busy = true →
      q = (s.queues[k]).takeWhile (·.busy) ++ r :: (s.queues[k]).dropWhile (·.busy)) ∧
    WorkFrame { s with queues := s.queues.set k q } u ∧
    (releaseCondition s k = false → queueNumbers u k = q.map (·.number) ∧
      ∃ x, findIn u k o.number = some x ∧ x = { r with state := x.state, readyTime := x.readyTime } ∧
        x.state = (if eligible u x then .ready else .pending) ∧
        (r.state = .ready ∨ x.state = .ready → x.readyTime = some s.clock) ∧
        (x.readyTime = none ∨ x.readyTime = some s.clock) ∧ (u.areas = s.areas → x = r))

/-- The table of moves and the crane's slots once record `n` of crane `k` has been voided: it has left the pool, the
records that named it as their after-move name none, and a STAGED one has left the staged slot (R20, R21, R6). -/
def voided (k : CraneNo) (r : MoveRecord) (s : State) : State :=
  mapMoves (fun x => if x.afterMove = some r.number then { x with afterMove := none } else x)
    (setQueue k ((s.queues[k]).filter fun x => decide (x.number ≠ r.number))
      (if r.state = .staged then modCrane k (fun c => { c with staged := none }) s else s))

/-- Record `x` is PENDING and becomes READY when record `r` is freed: its after-move names `r`, and it is eligible with its
after-move absent (R6, R12, R14). -/
abbrev MadeReadyBy (s : State) (r x : MoveRecord) : Prop :=
  x.afterMove = some r.number ∧ x.state = .pending ∧ eligible s { x with afterMove := none } = true

/-- What follows the voiding of record `r` of crane `k` that has made `v` of `s` (R11, R14, R28, R37, R124): the cranes
with a record made READY by it are evaluated, also where a dispatch pass of the voiding has made that record PENDING again
(R114); where the record was STAGED agreement is tested first, its crane is evaluated too, and a dispatch pass follows
(assumptions 9 and 38). -/
def afterVoiding (k : CraneNo) (r : MoveRecord) (s v : State) : State :=
  let told := fun j : CraneNo => ∃ x ∈ s.queues[j], MadeReadyBy s r x
  if r.state = .staged then dispatchPass (evaluateMany (cranes.filter fun j => decide (j = k ∨ told j)) (testAgreement k v))
  else evaluateMany (cranes.filter fun j => decide (told j)) v

/-- R10: ORDER_AMEND is refused UNKNOWN for a move not in the queue, COLLISION for one that is STAGED or ACTIVE, and RANGE
for another kind, an undefined kind or size code or a body that breaks its layout, or legs that are not valid (R7); a body
too short to name a move is refused RANGE. Accepted, it writes the legs in place and evaluates the record anew, and only
lashing tests and evaluations follow, in an order that is the model's choice (assumptions 9, 33 and 34), as is that an
area is gained only where the record had no deck point in it (assumption 40); the cranes with a move made READY by an area
gained are evaluated at the end. Where the release condition of the crane does not hold the queue keeps its order, and the
record carries the new legs, keeps its after-move, slot, call issued and the rest, and is READY exactly where it is
eligible, with the quay clock as its ready time where it has become READY; that it keeps the ready time it had where it
becomes PENDING is the model's reading (assumption 13, DEDUCED); where no area changes it is as the evaluation left it. R11, R20, R21: ORDER_CANCEL is refused RANGE for a
malformed body, UNKNOWN for a move not in the queue and COLLISION for the ACTIVE move; otherwise the record is voided by
cancel, with what follows a voiding, and nothing else where it was not STAGED and no dependent was made READY. R7 does not
place the layout test among the others: that an ORDER_AMEND makes it with its third test, and an ORDER_CANCEL first, is
the model's choice (assumption 6). -/
def Obligations.OrdersAmendAndCancel : Prop :=
  (∀ (s : State) (t : Telegram) (k : CraneNo), ToCrane s t k Config.kOrderAmend →
    (t.body.length < 2 → exec .orderAmend s = .next (answeredOnly s t .range)) ∧
    (∀ (n1 n0 : Byte) (rest : List Byte), t.body = n1 :: n0 :: rest →
      (findIn s k (moveOf n1 n0) = none → exec .orderAmend s = .next (answeredOnly s t .unknown)) ∧
      (∀ r, findIn s k (moveOf n1 n0) = some r →
        (r.busy = true → exec .orderAmend s = .next (answeredOnly s t .collision)) ∧
        (r.busy = false → readAmend t.body = none → exec .orderAmend s = .next (answeredOnly s t .range)) ∧
        (∀ o, r.busy = false → readAmend t.body = some o → o.kind ≠ r.kind ∨ legsValid s r.kind o.legs = false →
          exec .orderAmend s = .next (answeredOnly s t .range)) ∧
        (∀ o, r.busy = false → readAmend t.body = some o → o.kind = r.kind → legsValid s r.kind o.legs = true →
          let r' := evaluateRecord s { r with legs := o.legs }
          let w := modMove r.number (fun _ => r') s
          let v := tellRelease s w
          let before := deckAreas v r
          let after := deckAreas v r'
          let lost := before.filter fun a => decide (a ∉ after)
          let gained := after.filter fun a => decide (a ∉ before)
          let g := deckPointsGained gained v
          let u := { evaluateMany (newlyReady v g) (queueChanged k (deckPointsLost lost g)) with
            uplink := answeredUplink s.uplink t .accepted [] none }
          exec .orderAmend s = .next u ∧ WorkFrame w u ∧
          r' = { r with legs := o.legs, state := r'.state, readyTime := r'.readyTime } ∧
          (r'.state = if eligible s { r with legs := o.legs } then .ready else .pending) ∧
          (releaseCondition s k = false → ((pool s).map (·.number)).Nodup →
            queueNumbers u k = queueNumbers s k ∧
            ∃ x, findIn u k r.number = some x ∧ x = { r with legs := o.legs, state := x.state, readyTime := x.readyTime } ∧
              x.state = (if eligible u x then .ready else .pending) ∧
              (r.state ≠ .ready → x.state = .ready → x.readyTime = some s.clock) ∧
              (x.readyTime = r.readyTime ∨ x.readyTime = some s.clock) ∧ (u.areas = s.areas → x = r')))))) ∧
  ∀ (s : State) (t : Telegram) (k : CraneNo), ToCrane s t k Config.kOrderCancel →
    (t.body.length ≠ 2 → exec .orderCancel s = .next (answeredOnly s t .range)) ∧
    (∀ n1 n0 : Byte, t.body = [n1, n0] →
      (findIn s k (moveOf n1 n0) = none → exec .orderCancel s = .next (answeredOnly s t .unknown)) ∧
      (∀ r, findIn s k (moveOf n1 n0) = some r →
        (r.state = .active → exec .orderCancel s = .next (answeredOnly s t .collision)) ∧
        (r.state ≠ .active →
          let v := voidRecord k r .voidedCancel s
          let up := answeredUplink s.uplink t .accepted [] none
          let u := { afterVoiding k r s v with uplink := up }
          exec .orderCancel s = .next u ∧ WorkFrame (voided k r s) u ∧
          (r.state ≠ .staged → (∀ x ∈ pool s, ¬MadeReadyBy s r x) → u = { v with uplink := up }))))

/-! ### Directives -/

/-- R120: every directive is refused STATE for an ABSENT crane, then RANGE for a malformed body, then BUSY where the
crane's slot holds a directive. A body that names no kind is refused by whichever row takes it (assumption 11). A refusal
changes nothing else. -/
def Obligations.DirectiveRefusedInSequence : Prop :=
  ∀ (s : State) (t : Telegram) (k : CraneNo) (d : DirectiveKind), ToCrane s t k Config.kDirective →
    (∀ x, directiveNamed t.body = some x → x = d) →
    ((s.cranes[k]).mode = .absent → exec d.row s = .next (answeredOnly s t .state)) ∧
    ((s.cranes[k]).mode ≠ .absent → readDirective t.body = none →
      exec d.row s = .next (answeredOnly s t .range)) ∧
    ((s.cranes[k]).mode ≠ .absent → (readDirective t.body).isSome → (s.cranes[k]).directive.isSome →
      exec d.row s = .next (answeredOnly s t .busy))

/-- A directive that passes the first three tests of R120. -/
structure DirectiveReady (s : State) (t : Telegram) (k : CraneNo) (o : DirectiveOrder) : Prop
    extends ToCrane s t k Config.kDirective where
  present : (s.cranes[k]).mode ≠ .absent
  body : readDirective t.body = some o
  idle : (s.cranes[k]).directive = none

/-- R121, R122: a HOLD sets the held flag, marks the ACTIVE move as overlapping, and takes the staged move back; it is
accepted at receipt, with a DIRECTIVE report, where there is no ACTIVE move and stays pending otherwise. Agreement is tested
where a staged slot was emptied, and the JOBLIST mark stays as it was otherwise. No other crane, and
no lane, changes, and nothing more is reported but by the dispatch pass that follows where a staged slot was emptied. The
next state is written out, with the pass in it. -/
def Obligations.HoldTaken : Prop :=
  ∀ (s : State) (t : Telegram) (k : CraneNo) (o : DirectiveOrder), DirectiveReady s t k o → o.kind = .hold →
    let overlap := fun r : MoveRecord =>
      if (s.cranes[k]).active = some r.number then { r with holdOverlap := true } else r
    let b := { s with
      cranes := s.cranes.set k { s.cranes[k] with held := true, directive := some ⟨o.number, .hold, o.move, s.clock⟩ }
      queues := Vector.ofFn fun j => (s.queues[j]).map overlap }
    let x := if (s.cranes[k]).staged.isSome then dispatchPass (testAgreement k (takeBack k b)) else b
    let y := if (s.cranes[k]).active.isSome then x
      else report (.directive k o.number .hold o.move .normal) (modCrane k (fun c => { c with directive := none }) x)
    ∃ u, exec .hold s = .next u ∧ u = { y with uplink := u.uplink } ∧
      u.uplink = answeredUplink s.uplink t .accepted [] none ∧
      u.cranes[k] = { s.cranes[k] with
        held := true
        staged := none
        jobMark := if (s.cranes[k]).staged.isSome then agreement u k else (s.cranes[k]).jobMark
        directive := if (s.cranes[k]).active.isSome then some ⟨o.number, .hold, o.move, s.clock⟩ else none } ∧
      (∀ j : CraneNo, j ≠ k → u.cranes[j] = s.cranes[j]) ∧
      (∀ j : CraneNo, queueNumbers u j = queueNumbers s j) ∧
      (∀ n, (s.cranes[k]).active = some n → (s.cranes[k]).staged ≠ some n →
        ∀ r ∈ pool u, r.number = n → r.holdOverlap = true) ∧
      (∀ n, (s.cranes[k]).staged = some n → ∀ r ∈ pool u, r.number = n → r.state = .ready ∨ r.state = .pending) ∧
      ((s.cranes[k]).staged = none ∨ s.berth.state ≠ .running → u.reports =
        if (s.cranes[k]).active.isSome then s.reports
        else (report (.directive k o.number .hold o.move .normal) s).reports) ∧
      u.lanes = s.lanes ∧ u.gateMarks = s.gateMarks ∧ u.clock = s.clock ∧ u.params = s.params ∧
      u.cycles = s.cycles ∧ u.roster = s.roster ∧ u.bays = s.bays ∧ u.berth = s.berth ∧ u.stations = s.stations ∧
      u.field = s.field

/-- R123, R128: a RESUME clears the held flag and is accepted at receipt. A RETURN is refused STATE for a crane that is
not WITHDRAWN, and makes it IN_SERVICE otherwise, with the berth state tested, and a BERTH report where that changes. A
DIRECTIVE report is offered, and only an evaluation of the crane follows either; that its reports come after the DIRECTIVE
report is the model's choice (assumption 10). -/
def Obligations.ResumeAndReturnTaken : Prop :=
  ∀ (s : State) (t : Telegram) (k : CraneNo) (o : DirectiveOrder), DirectiveReady s t k o →
    let up := answeredUplink s.uplink t .accepted [] none
    (o.kind = .resume →
      let w := modCrane k (fun c => { c with held := false }) s
      let u := { evaluate k (report (.directive k o.number .resume o.move .normal) w) with uplink := up }
      exec .resume s = .next u ∧ WorkFrame w u) ∧
    (o.kind = .returnCrane → (s.cranes[k]).mode ≠ .withdrawn →
      exec .returnCrane s = .next (answeredOnly s t .state)) ∧
    (o.kind = .returnCrane → (s.cranes[k]).mode = .withdrawn →
      let v := modCrane k (fun c => { c with mode := .inService }) s
      let w := { v with berth := { v.berth with
        state := if s.berth.state = .running then .running else holdState v } }
      let u := { evaluate k (offered (berthReport k s w ++ [.directive k o.number .returnCrane o.move .normal]) w) with uplink := up }
      exec .returnCrane s = .next u ∧ WorkFrame w u)

/-- R124: a SKIP is refused UNKNOWN for a move not in the queue and COLLISION for the ACTIVE move; otherwise the move is
voided by skip, with what follows a voiding. R125: a PROMOTE is refused STATE for a move not in the queue, or STAGED or
ACTIVE; otherwise the move is set directly behind the STAGED and ACTIVE moves, and the others keep their order; a move that
stands there already keeps its place and nothing follows, and else the lashing table is told and the crane evaluated. Where
the release condition of the crane does not hold the queue then stands in that order, and where no area changes either every
record is as it was. Either is accepted at receipt, and the DIRECTIVE report, which carries the move, comes last (the
model's choice, assumption 10; what follows a voiding has its order by assumptions 9 and 38). -/
def Obligations.SkipAndPromoteTaken : Prop :=
  ∀ (s : State) (t : Telegram) (k : CraneNo) (o : DirectiveOrder) (n : MoveNo), DirectiveReady s t k o →
    o.move = some n →
    let up := answeredUplink s.uplink t .accepted [] none
    (o.kind = .skip →
      (findIn s k n = none → exec .skip s = .next (answeredOnly s t .unknown)) ∧
      (∀ r, findIn s k n = some r →
        (r.state = .active → exec .skip s = .next (answeredOnly s t .collision)) ∧
        (r.state ≠ .active →
          let v := voidRecord k r .voidedSkip s
          let u := { report (.directive k o.number .skip (some n) .normal) (afterVoiding k r s v) with uplink := up }
          exec .skip s = .next u ∧ WorkFrame (voided k r s) u ∧
          (r.state ≠ .staged → (∀ x ∈ pool s, ¬MadeReadyBy s r x) →
            u = { report (.directive k o.number .skip (some n) .normal) v with uplink := up })))) ∧
    (o.kind = .promote →
      (findIn s k n = none → exec .promote s = .next (answeredOnly s t .state)) ∧
      (∀ r, findIn s k n = some r →
        (r.busy = true → exec .promote s = .next (answeredOnly s t .state)) ∧
        (r.busy = false →
          let rest := (s.queues[k]).filter fun x => decide (x.number ≠ n)
          let q := rest.takeWhile (·.busy) ++ r :: rest.dropWhile (·.busy)
          let w := { s with queues := s.queues.set k q }
          let v := if q = s.queues[k] then s else evaluate k (queueChanged k w)
          let u := { report (.directive k o.number .promote (some n) .normal) v with uplink := up }
          exec .promote s = .next u ∧ WorkFrame w u ∧
          (releaseCondition s k = false → queueNumbers u k = q.map (·.number) ∧
            (u.areas = s.areas → u.queues = s.queues.set k q)))))

/-- Crane `k`'s ACTIVE move, if any, is named by the slot that it holds. -/
def ActiveHolds (s : State) (k : CraneNo) : Prop :=
  ∀ n r l, (s.cranes[k]).active = some n → findIn s k n = some r → r.lane = some l → (s.lanes[l]).slot.move = some n

/-- The slot of lane `l` is taken from its move at the acceptance of a WITHDRAW of crane `k`: the move is one of `k`'s, and
not ACTIVE once the ACTIVE move of the crane has been abandoned. -/
def freedByWithdraw (s : State) (k : CraneNo) (l : LaneNo) : Bool :=
  match (s.lanes[l]).slot.move.bind (findMove s) with
  | some (j, r) => decide (j = k ∧ (r.state ≠ .active ∨ (s.cranes[k]).active = some r.number))
  | none => false

/-- What the steps of R127 and R126 leave before the evaluations and the DIRECTIVE report: crane `k` WITHDRAWN with its
active slot empty, an ACTIVE move it had abandoned by R19 with its place kept; the slots of all its moves released by
TABLE 31, with their holds cleared and their gates marked; its requests withdrawn, and those that name the abandoned move;
the berth state tested; the reports of those steps offered, those of the abandonment in an order that is the model's
choice (assumption 10), with the crane that a TO_HOLDING report names (assumption 25); and nothing else changed. -/
structure WithdrawMade (k : CraneNo) (s t : State) : Prop where
  crane : t.cranes = s.cranes.set k { s.cranes[k] with mode := .withdrawn, active := none }
  lanes : ∀ l : LaneNo, t.lanes[l] = { s.lanes[l] with
    slot := if freedByWithdraw s k l then releasedSlot (s.lanes[l]).slot else (s.lanes[l]).slot
    request := (s.lanes[l]).request.filter fun q => decide (q.crane ≠ k ∧ (s.cranes[k]).active ≠ some q.move) }
  gates : ∀ u : GateNo, t.gateMarks[u] = (s.gateMarks[u] ||
    Machine.lanes.any fun l => decide (gateOf l = u ∧ (t.lanes[l]).signal ≠ (s.lanes[l]).signal))
  queues : ∀ j : CraneNo, queueNumbers t j = queueNumbers s j
  cleared : ∀ (l : LaneNo) (n : MoveNo), (s.lanes[l]).slot.move = some n → freedByWithdraw s k l = true →
    ∀ r ∈ pool t, r.number = n → r.lane = none ∧ r.called = false
  abandoned : ∀ n, (s.cranes[k]).active = some n → ∀ r ∈ pool t, r.number = n →
    r.abandoned = true ∧ r.progress = none ∧ r.state = if eligible t r then .ready else .pending
  berth : t.berth = { s.berth with state := if s.berth.state = .running then .running else holdState t }
  reports : t.reports = (offered (
    (((s.cranes[k]).active.bind (findIn s k)).bind (·.lane)).elim []
        (fun l => cancelReport l .withdrawn (s.lanes[l]).slot) ++
      berthReport k s t ++
      (s.cranes[k]).active.elim [] (fun n => [.moveState n k .abandoned]) ++
      Machine.lanes.flatMap fun l =>
        if freedByWithdraw s k l = true ∧ ((s.cranes[k]).active.bind (findIn s k)).bind (·.lane) ≠ some l then
          cancelReport l .withdrawn (s.lanes[l]).slot
        else []) s).reports
  rest : t = { s with
    cranes := t.cranes, lanes := t.lanes, queues := t.queues, gateMarks := t.gateMarks, berth := t.berth
    reports := t.reports }

/-- What an acceptance of the WITHDRAW `d` by SILENCE leaves (R127): the steps above, the test of agreement for `k`, the
evaluation of the other cranes, a dispatch pass, the directive slot emptied, and the DIRECTIVE report with the abandoned
move. -/
def SilenceAccepted (k : CraneNo) (d : PendingDirective) (s t : State) : Prop :=
  ∃ v, WithdrawMade k s v ∧
    let w := dispatchPass (evaluateMany (cranes.filter fun j => decide (j ≠ k)) (testAgreement k v))
    t = report (.directive k d.number d.kind d.move (.silence (s.cranes[k]).active))
      (modCrane k (fun c => { c with directive := none }) w)

/-- The state once the WITHDRAW `d` has been received: a staged move is taken back, with the test of agreement and the
dispatch pass that follow, and the directive stands in its slot (R121, R126). -/
def withdrawReceived (k : CraneNo) (d : PendingDirective) (s : State) : State :=
  modCrane k (fun c => { c with directive := some d })
    (if (s.cranes[k]).staged.isSome then dispatchPass (testAgreement k (takeBack k s)) else s)

/-- R126: a WITHDRAW is refused STATE for a WITHDRAWN crane. Otherwise the staged move is taken back and the directive
stands in its slot: no other crane, no lane and no queue order changes by it, nor, against a sentence of R129, the
hold-overlap flag of the ACTIVE move (R47, TABLE 42; assumption 43, DEDUCED). With an ACTIVE move, and no silence or one
shorter than SILENT_WITHDRAW, it stays pending; R127: with a silence that long it is accepted by SILENCE at receipt. With
no ACTIVE move it is accepted at receipt by NORMAL, however long its crane has been silent (assumption 42, DEDUCED): the
mode becomes WITHDRAWN, the slots of the crane's moves are released, its requests are withdrawn with the owners kept, and
the DIRECTIVE report follows. That the reports of an acceptance by SILENCE come in the order TRUCK_CANCEL of the abandoned
move, BERTH, MOVE_STATE, and then the other TRUCK_CANCELs, is the model's choice (assumption 10). -/
def Obligations.WithdrawTaken : Prop :=
  ∀ (s : State) (t : Telegram) (k : CraneNo) (o : DirectiveOrder), DirectiveReady s t k o → o.kind = .withdraw →
    let d : PendingDirective := ⟨o.number, .withdraw, o.move, s.clock⟩
    let b := withdrawReceived k d s
    let up := answeredUplink s.uplink t .accepted [] none
    ((s.cranes[k]).mode = .withdrawn → exec .withdraw s = .next (answeredOnly s t .state)) ∧
    (b.cranes[k] = { s.cranes[k] with staged := none, jobMark := (b.cranes[k]).jobMark, directive := some d } ∧
      (b.cranes[k]).jobMark = (if (s.cranes[k]).staged.isSome then agreement b k else (s.cranes[k]).jobMark) ∧
      (∀ n, (s.cranes[k]).staged = some n → ∀ r ∈ pool b, r.number = n → r.state = .ready ∨ r.state = .pending) ∧
      (∀ j : CraneNo, j ≠ k → b.cranes[j] = s.cranes[j]) ∧ (∀ j : CraneNo, queueNumbers b j = queueNumbers s j) ∧
      b.lanes = s.lanes ∧ b.gateMarks = s.gateMarks ∧ b.berth = s.berth ∧ b.clock = s.clock ∧ b.params = s.params ∧
      b.roster = s.roster ∧ b.bays = s.bays ∧ b.stations = s.stations ∧ b.field = s.field ∧ b.uplink = s.uplink) ∧
    ((s.cranes[k]).mode ≠ .withdrawn → (s.cranes[k]).active.isSome →
      (∀ c, (s.cranes[k]).silenceStart = some c → age s.clock c < par s Config.SILENT_WITHDRAW) →
      exec .withdraw s = .next { b with uplink := up }) ∧
    (∀ c, (s.cranes[k]).mode ≠ .withdrawn → (s.cranes[k]).active.isSome → (s.cranes[k]).silenceStart = some c →
      par s Config.SILENT_WITHDRAW ≤ age s.clock c → ((pool s).map (·.number)).Nodup → ActiveHolds s k →
      ∃ u, exec .withdraw s = .next { u with uplink := up } ∧ SilenceAccepted k d b u) ∧
    ((s.cranes[k]).mode ≠ .withdrawn → (s.cranes[k]).active = none →
      ∃ v, WithdrawMade k b v ∧ exec .withdraw s = .next { report (.directive k d.number d.kind d.move .normal)
        (modCrane k (fun c => { c with directive := none }) v) with uplink := up })

/-- R19, R127: a WITHDRAW that has been pending through SILENT_WITHDRAW ds of silence is accepted by SILENCE: the ACTIVE
move, if any, is abandoned and keeps its place, the mode becomes WITHDRAWN, the active slot is emptied, agreement is
tested, no request of the crane is left, and the directive slot is emptied; and where the ACTIVE move is named by the slot
it holds, as in every run, the steps are made as said of an acceptance by SILENCE. The model's choices: that the reports
come in the order TRUCK_CANCEL of the abandoned move, BERTH, MOVE_STATE, and then the other TRUCK_CANCELs (assumption 10),
and that the command changes nothing for a shorter silence, or with no WITHDRAW pending (assumption 3). -/
def Obligations.SilenceAcceptsWithdraw : Prop :=
  ∀ (k : CraneNo) (s : State), s.resetAsserted = false →
    (∀ d c, (s.cranes[k]).directive = some d → d.kind = .withdraw → (s.cranes[k]).silenceStart = some c →
      par s Config.SILENT_WITHDRAW ≤ age s.clock c →
      ∃ u, exec (.silenceExpiry k) s = .next u ∧
        u.cranes[k] = { s.cranes[k] with mode := .withdrawn, active := none, jobMark := agreement u k, directive := none } ∧
        (∀ n, (s.cranes[k]).active = some n → ∀ r ∈ pool u, r.number = n → r.abandoned = true) ∧
        queueNumbers u k = queueNumbers s k ∧ (∀ n, n ∈ (pool u).map (·.number) ↔ n ∈ (pool s).map (·.number)) ∧
        (∀ (l : LaneNo) (q : Request), (u.lanes[l]).request = some q → q.crane ≠ k) ∧
        (((pool s).map (·.number)).Nodup → ActiveHolds s k → SilenceAccepted k d s u) ∧
        u.berth.causes = s.berth.causes ∧ u.uplink = s.uplink ∧ u.clock = s.clock ∧ u.params = s.params ∧
        u.cycles = s.cycles ∧ u.roster = s.roster ∧ u.bays = s.bays ∧ u.stations = s.stations ∧ u.field = s.field) ∧
    ((∀ d, (s.cranes[k]).directive = some d → d.kind = .withdraw →
        ∀ c, (s.cranes[k]).silenceStart = some c → age s.clock c < par s Config.SILENT_WITHDRAW) →
      exec (.silenceExpiry k) s = .next s)

/-! ### Management telegrams -/

/-- Telegram `t` was accepted with this data in its RESPONSE, and nothing else changed. -/
def answeredData (s : State) (t : Telegram) (data : List Byte) : State :=
  { s with uplink := answeredUplink s.uplink t .accepted data none }

/-- The number of rows of the tables that a READ indexes (R173). -/
def tableRows : Nat → Nat
  | 2 => 8
  | 3 => 16
  | 4 => 32
  | 5 => 6
  | 6 => 64
  | 7 => 16
  | 8 => 8
  | 9 => 32
  | 10 => 22
  | 11 => 40
  | 12 => 8
  | _ => 0

/-- R171, R172, R173, TABLES 61 and 64: IDENT, STATUS and READ change nothing but the uplink, by which they answer. A
body of the wrong length is refused RANGE, and so is a table or an index that is not there; a move that is not in the pool
is refused UNKNOWN. The data of IDENT, of STATUS, and of the READ tables 5 to 7 and 9 to 12 are given here in full. That an
empty row of the bay map shows its position and area absent is the model's choice (assumption 16). -/
def Obligations.IdentStatusReadAnswer : Prop :=
  ∀ (s : State) (t : Telegram),
    (ToPart s t Config.kIdent →
      (t.body = [] → exec .ident s = .next (answeredData s t
        [0x0A, 0x17, 0x0C, 0x08, 1, 8, 6, 8, 16, 64, 32, 32, 64, 16, 8, 96, 0x02, 0x00])) ∧
      (t.body ≠ [] → exec .ident s = .next (answeredOnly s t .range))) ∧
    (ToPart s t Config.kStatus →
      (t.body ≠ [] → exec .status s = .next (answeredOnly s t .range)) ∧
      (t.body = [] → ∃ d, exec .status s = .next (answeredData s t d) ∧ d.length = 64 ∧
        d.take 4 = [s.berth.state.code, s.berth.causes.code, flagByte s.berth.closed, flagByte (calm s)] ∧
        (∃ m n : Nat, (d.drop 4).take 4 = be16 m ++ be16 n ∧ m < 0x4000 ∧ n < 0x4000 ∧
          ∀ c : Fin 14, m.testBit c.val = s.reports.seen[c] ∧ n.testBit c.val = s.reports.lost[c]) ∧
        d[8]? = some (flagByte (attention s)) ∧ (d.drop 9).take 2 = be16 (pool s).length ∧
        (∀ k : CraneNo, d[11 + k.val]? = some (byte (s.queues[k]).length) ∧
          d[19 + k.val]? = some (s.cranes[k]).mode.code) ∧
        (∀ x : Station, d[27 + x.index.val]? = some (s.stations[x.index]).state.code) ∧
        (d.drop 49).take 6 =
          [byte (lanes.countP fun l => decide ((s.lanes[l]).slot = .free false ∨ (s.lanes[l]).slot = .free true)),
            byte (lanes.countP fun l => decide ((s.lanes[l]).slot.code = 1)),
            byte (lanes.countP fun l => decide ((s.lanes[l]).slot.code = 2)),
            byte (lanes.countP fun l => decide ((s.lanes[l]).slot.code = 3)),
            byte (lanes.countP fun l => decide ((s.lanes[l]).slot = .worked)),
            byte (lanes.countP fun l => decide ((s.lanes[l]).slot = .free true))] ∧
        (d.drop 55).take 2 = [byte (s.jobs.countP fun j => decide (j.kind = .unlash)),
          byte (s.jobs.countP fun j => decide (j.kind = .lash))] ∧
        (∃ m : Nat, d[57]? = some (byte m) ∧ m < 64 ∧ ∀ f : LineFault, m.testBit f.index.val = s.uplink.latches[f.index]) ∧
        d[58]? = some (byte s.reports.queue.length) ∧ d[59]? = some (byte s.field.forward.length) ∧
        d.drop 60 = clockBytes s.clock)) ∧
    (ToPart s t Config.kRead →
      (t.body.length ≠ 3 → exec .read s = .next (answeredOnly s t .range)) ∧
      ∀ (b hi lo : Byte), t.body = [b, hi, lo] →
        (b = 0 ∨ 12 < b.toNat → exec .read s = .next (answeredOnly s t .range)) ∧
        (2 ≤ b.toNat → b.toNat ≤ 12 → tableRows b.toNat ≤ of16 hi lo →
          exec .read s = .next (answeredOnly s t .range)) ∧
        (b = 1 → (moveOf hi lo = 0 ∨ moveOf hi lo ∉ (pool s).map (·.number)) →
          exec .read s = .next (answeredOnly s t .unknown)) ∧
        (∀ g : GangNo, b = 5 → of16 hi lo = g.val → exec .read s = .next (answeredData s t
          ([(s.gangs[g]).state.code, (s.stations[(Station.gang g).index]).state.code,
            indexOptByte ((s.gangs[g]).state.job.map (·.area.val)), ((s.gangs[g]).state.job.map (·.kind.code)).getD 0] ++
            wordOptBytes ((s.gangs[g]).serial.map (·.toNat)) ++ [(s.gangs[g]).mark.code]))) ∧
        (∀ i : Fin 64, b = 6 → of16 hi lo = i.val →
          (∀ x, s.bays[i] = some x →
            exec .read s = .next (answeredData s t [byte x.bay, byte (x.position / 256), byte x.position, byte x.area.val])) ∧
          (s.bays[i] = none → exec .read s = .next (answeredData s t [0, 0xFF, 0xFF, 0xFF]))) ∧
        (∀ l : LaneNo, b = 7 → of16 hi lo = l.val → exec .read s = .next (answeredData s t
          [(s.lanes[l]).use.code, byte ((s.lanes[l]).travel / 256), byte (s.lanes[l]).travel,
            flagByte (s.lanes[l]).activeLow, byte (s.lanes[l]).settle])) ∧
        (b = 9 → of16 hi lo < 32 → exec .read s = .next (answeredData s t [s.field.plan.getD (of16 hi lo) 0])) ∧
        (∀ x : Station, b = 10 → of16 hi lo = x.index.val → exec .read s = .next (answeredData s t
          [(s.stations[x.index]).state.code, byte (s.stations[x.index]).missed])) ∧
        (∀ i : Config.Param, b = 11 → of16 hi lo = i.val →
          exec .read s = .next (answeredData s t [byte (par s i / 256), byte (par s i)])) ∧
        (∀ k : CraneNo, b = 12 → of16 hi lo = k.val → exec .read s = .next (answeredData s t
          (be32 (s.cycles[k]).single ++ be32 (s.cycles[k]).dual ++ be16 ((s.cycles[k]).single / 16) ++
            be16 ((s.cycles[k]).dual / 16)))))

/-- R173, TABLE 64, R156, TABLE 53: the data of a READ of a move record, a crane context, a lane slot, an area with its
queued job and that job's place, and a roster entry, item by item; with the bytes of a leg, and the codes of TABLE 56 and
TABLE 64 that stand in them. -/
def Obligations.ReadTablesAnswer : Prop :=
  (∀ (s : State) (t : Telegram) (b hi lo : Byte), ToPart s t Config.kRead → t.body = [b, hi, lo] →
    let two := fun n : Nat => [byte (n / 256), byte n]
    let opt := fun m : Option MoveNo => two ((m.map (·.toNat)).getD 0)
    let four := fun n : Nat => [byte (n / 16777216), byte (n / 65536), byte (n / 256), byte n]
    let time := fun c : Option Clock => match c with
      | some x => 1 :: four x.toNat
      | none => [0, 0, 0, 0, 0]
    let word := fun n : Option Nat => match n with
      | some x => two x
      | none => [0xFF, 0xFF]
    let index := fun n : Option Nat => (n.map byte).getD 0xFF
    let flag := fun f : Bool => if f then (1 : Byte) else 0
    let gives := fun d => exec .read s = .next (answeredData s t d)
    (∀ (k : CraneNo) (p : List MoveRecord) (r : MoveRecord) (q : List MoveRecord), b = 1 → moveOf hi lo = r.number →
      r.number ≠ 0 → s.queues[k] = p ++ r :: q → ((pool s).map (·.number)).Nodup →
      gives ([hi, lo, byte k.val, byte p.length, r.kind.code, r.state.code,
          ((pendingCause s r).map BlockReason.code).getD 0] ++ opt r.afterMove ++
        [index (r.lane.map (·.val)), flag r.called] ++ time r.readyTime ++ time r.activation ++
        (match r.progress with
          | some x => [x.next.code, byte (x.lift1.toNat + 2 * x.lift2.toNat)]
          | none => [0, 0]) ++
        [flag r.holdOverlap, flag r.abandoned] ++ r.legs.flatMap Leg.bytes)) ∧
    (∀ k : CraneNo, b = 2 → of16 hi lo = k.val →
      let c := s.cranes[k]
      gives ([c.mode.code, flag c.held, flag c.fault, (s.stations[(Station.crane k).index]).state.code] ++ opt c.active ++
        opt c.staged ++ word c.position ++ two c.wind ++ word (c.serial.map (·.toNat)) ++
        (match c.view with
          | some v => 1 :: (opt v.active ++ opt v.staged)
          | none => [0, 0, 0, 0, 0]) ++
        [flag c.jobWanted] ++ time c.deferStart ++ time c.lastCompletion ++
        [c.jobMark.code, (c.waitMark.map BlockReason.code).getD 0] ++
        (match c.directive with
          | some d => [1, d.number, d.kind.code] ++ opt d.move ++ four d.received.toNat
          | none => [0, 0, 0, 0, 0, 0, 0, 0, 0]) ++
        time c.silenceStart)) ∧
    (∀ l : LaneNo, b = 3 → of16 hi lo = l.val →
      let x := s.lanes[l]
      gives ([x.slot.code] ++ opt x.slot.move ++ [flag (decide (x.slot = .free true)), flag x.present] ++
        time x.candidate ++ [x.signal.code, index (x.owner.map (·.val))] ++
        (match x.request with
          | some q => byte q.crane.val :: two q.move.toNat
          | none => [0xFF, 0, 0]))) ∧
    (∀ a : AreaNo, b = 4 → of16 hi lo = a.val →
      let x := s.areas[a]
      let items := [x.deck.code, flag x.lashRequired, index (x.gang.map (·.val))]
      ((∀ j ∈ s.jobs, j.area ≠ a) → gives (items ++ [0, 0xFF])) ∧
      (∀ p j q, s.jobs = p ++ j :: q → j.area = a → (∀ y ∈ p, y.area ≠ a) →
        gives (items ++ [j.kind.code, byte p.length]))) ∧
    (∀ k : CraneNo, b = 8 → of16 hi lo = k.val →
      (s.roster[k] = none → gives [0, 0, 0, 0, 0xFF, 0xFF, 0xFF]) ∧
      (∀ e, s.roster[k] = some e → e.homeLanes.length ≤ 3 →
        gives ([1] ++ two e.parking ++ [byte e.homeLanes.length] ++ (e.homeLanes.map fun l => byte l.val) ++
          List.replicate (3 - e.homeLanes.length) 0xFF)))) ∧
  (∀ l : Leg,
    let toBay := l.restow.bind (·.toBay)
    let deck := fun z : Zone => if z = .deck then 1 else 0
    let box := fun x : Box => x.identifier ++
      [byte ((x.size.code * 16384 + x.mass) / 256), byte (x.size.code * 16384 + x.mass)]
    l.bytes = [byte l.bay,
        byte (deck l.zone + 2 * (l.restow.map fun d => deck d.toZone).getD 0 + 4 * l.box2.isSome.toNat +
          8 * toBay.isSome.toNat)] ++
      (toBay.map byte).toList ++ box l.box1 ++ (l.box2.map box).getD []) ∧
  [BoxSize.ft20, .ft40, .ft45].map BoxSize.code = [1, 2, 3] ∧
  [MoveKind.discharge, .load, .dual, .restow].map MoveKind.code = [1, 2, 3, 4] ∧
  [MoveState.pending, .ready, .staged, .active].map MoveState.code = [0, 1, 2, 3] ∧
  [BlockReason.queueEmpty, .craneHeld, .precedence, .lashing, .gang, .lane, .clearance].map BlockReason.code =
    [1, 2, 3, 4, 5, 6, 7] ∧
  [Mode.absent, .inService, .withdrawn].map Mode.code = [0, 1, 2] ∧
  [JobMark.clear, .full, .empty].map JobMark.code = [0, 1, 2] ∧
  [GangMark.clear, .job, .cancel].map GangMark.code = [0, 1, 2] ∧
  [Signal.closed, .enter, .stay, .leave].map Signal.code = [0, 1, 2, 3] ∧
  (∀ f m, [Slot.free f, .reserved m, .called m, .arrived m, .worked].map Slot.code = [0, 1, 2, 3, 4]) ∧
  (∀ (k : CraneNo) (j : Fin 7), [LaneUse.unused, .home k, .shared j].map LaneUse.code =
    [0, byte (0x10 + k.val), byte (0x20 + j.val)])

/-- The value that a SET_PARAM writes (R174): the value given, clamped into the range of TABLE 62, and then by the
dependent limits. -/
def writtenValue (s : State) (i : Config.Param) (v : Nat) : Nat :=
  let c := clamp Config.paramTable[i].low Config.paramTable[i].high v
  if i = Config.CYCLE_MIN then min c (par s Config.CYCLE_MAX)
  else if i = Config.CYCLE_MAX then max c (par s Config.CYCLE_MIN)
  else if i = Config.WIND_RESUME then min c (par s Config.WIND_STOP - 10)
  else c

/-- R174 (and R26, R51, R165): SET_PARAM is refused RANGE for a number above 39 or a value that is no code of a coded
parameter, and COLLISION for a new SEP while some crane has a STAGED or ACTIVE move. Otherwise the clamped value is
written and answered CLAMPED where it differs from the value given, ACCEPTED where it does not. A written WIND_STOP
clamps WIND_RESUME, QUAY_LEN lowers stored positions, and CYCLE_MIN and CYCLE_MAX clamp the smoothed times; a change of
the uplink settings goes with the RESPONSE; and nothing else changes, but that a LASH_LEAD that differs from the one before
is followed by an unlash test of every area with deck work among the leading records of a queue, in an order that is the
model's choice (assumption 33). R104: an unlash test of such an area that is LASHED puts an UNLASH job at the tail of the
queue and the area in UNLASH_WAIT with an AREA report, and a dispatch pass follows; any other changes nothing. -/
def Obligations.SetParamWritesClamped : Prop :=
  (∀ (s : State) (a : AreaNo),
    let due := (s.areas[a]).deck = .lashed ∧ LeadWork s a
    (¬due → unlashTest s a = s) ∧
    (due → ∃ v, unlashTest s a = dispatchPass v ∧
      v = { s with
        jobs := s.jobs ++ [⟨a, .unlash⟩]
        areas := s.areas.set a { s.areas[a] with deck := .unlashWait }
        queues := v.queues
        reports := (report (.area a .lashed .unlashWait .unlashQueued) s).reports } ∧
      ∀ k : CraneNo, queueNumbers v k = queueNumbers s k ∧ ∀ r' ∈ v.queues[k], ∃ r ∈ s.queues[k],
        r' = { r with state := r'.state, readyTime := r'.readyTime } ∧ (r.busy = true ∨ ¬DeckIn s r a → r' = r) ∧
        (r.busy = false → DeckIn s r a → r'.state = .pending))) ∧
  ∀ (s : State) (t : Telegram), ToPart s t Config.kSetParam →
    (t.body.length ≠ 3 → exec .setParam s = .next (answeredOnly s t .range)) ∧
    ∀ (n hi lo : Byte), t.body = [n, hi, lo] →
      (40 ≤ n.toNat → exec .setParam s = .next (answeredOnly s t .range)) ∧
      ∀ i : Config.Param, n.toNat = i.val →
        let v := of16 hi lo
        let w := writtenValue s i v
        let noCode := (i = Config.ANSWER_MODE ∧ 1 < v) ∨ ((i = Config.UPLINK_PARITY ∨ i = Config.FIELD_PARITY) ∧ 2 < v)
        let collides := i = Config.SEP ∧ w ≠ par s Config.SEP ∧ ∃ r ∈ pool s, r.state = .staged ∨ r.state = .active
        let params :=
          if i = Config.WIND_STOP then
            (s.params.set i w).set Config.WIND_RESUME (min (par s Config.WIND_RESUME) (w - 10))
          else s.params.set i w
        let low := 16 * params[Config.CYCLE_MIN]
        let high := 16 * params[Config.CYCLE_MAX]
        let uplink := answeredUplink s.uplink t (if w = v then .accepted else .clamped) []
          (if uplinkSettings params = uplinkSettings s.params then none else some (uplinkSettings params))
        (noCode → exec .setParam s = .next (answeredOnly s t .range)) ∧
        (¬noCode → collides → exec .setParam s = .next (answeredOnly s t .collision)) ∧
        (¬noCode → ¬collides → i ≠ Config.LASH_LEAD →
          exec .setParam s = .next { s with
            uplink := uplink
            params := params
            cranes :=
              if i = Config.QUAY_LEN then
                Vector.ofFn fun k => { s.cranes[k] with position := (s.cranes[k]).position.map fun p => min p w }
              else s.cranes
            cycles :=
              if i = Config.CYCLE_MIN ∨ i = Config.CYCLE_MAX then
                Vector.ofFn fun k => ⟨clamp low high (s.cycles[k]).single, clamp low high (s.cycles[k]).dual⟩
              else s.cycles }) ∧
        (i = Config.LASH_LEAD →
          let p := { s with params := params }
          (w = par s Config.LASH_LEAD → exec .setParam s = .next { s with uplink := uplink }) ∧
          (w ≠ par s Config.LASH_LEAD → ∃ as : List AreaNo, (∀ a, a ∈ as ↔ LeadWork p a) ∧
            exec .setParam s = .next { as.foldl unlashTest p with uplink := uplink } ∧
            WorkFrame p { as.foldl unlashTest p with uplink := uplink }))

/-- R169: ACK_SUMMARY clears the seen and lost flags of the classes that its mask names, and nothing else; a body of
another length, and a mask with bit 14 or 15 set, are refused RANGE. The attention output is asserted exactly while some
class has its seen or its lost flag set and a level of at least ATTENTION_LEVEL; R166: that level is CLASS_LEVEL of the
class, and 3 for RESTART. -/
def Obligations.AckSummaryClears : Prop :=
  (∀ (s : State) (t : Telegram), ToPart s t Config.kAckSummary →
    (t.body.length ≠ 2 → exec .ackSummary s = .next (answeredOnly s t .range)) ∧
    ∀ hi lo : Byte, t.body = [hi, lo] →
      (0x40 ≤ hi.toNat → exec .ackSummary s = .next (answeredOnly s t .range)) ∧
      (hi.toNat < 0x40 → exec .ackSummary s = .next { s with
        uplink := answeredUplink s.uplink t .accepted [] none
        reports := { s.reports with
          seen := Vector.ofFn fun c => s.reports.seen[c] && !(of16 hi lo).testBit c.val
          lost := Vector.ofFn fun c => s.reports.lost[c] && !(of16 hi lo).testBit c.val } })) ∧
  ∀ s : State, (attention s = true ↔ ∃ c : Fin 14, par s Config.ATTENTION_LEVEL ≤ classLevel s c ∧
      (s.reports.seen[c] = true ∨ s.reports.lost[c] = true)) ∧
    classLevel s 13 = 3 ∧ ∀ c : Fin 13, classLevel s (c.castLE (by decide)) = par s (Config.CLASS_LEVEL c)

/-! ### Loading the tables -/

/-- The state in which the head telegram `t` has one row alone as its body. -/
def aloneRow (s : State) (t : Telegram) (row : List Byte) : State :=
  { s with uplink := { s.uplink with inbound := { t with body := row } :: s.uplink.inbound.tail } }

/-- A LOAD `c` of the row alone would be refused with `x`. -/
def RowRefused (c : Instr) (s : State) (t : Telegram) (row : List Byte) (x : Result) : Prop :=
  x ≠ .accepted ∧ exec c (aloneRow s t row) = .next (answeredOnly (aloneRow s t row) { t with body := row } x)

/-- R171, R175: a LOAD body that is empty or not a whole number of rows, or that names one index twice, is refused RANGE,
for every table written by rows. Of a telegram of several rows the first that fails its tests on the tables as they stand
before the telegram refuses the whole, and where every row passes they are written in body order, an area's rows with the
evaluations that the moves made READY call for after the last (assumption 17, DEDUCED). A bay number is tested against the
rows of the whole telegram and those of the map that it leaves (R101); that the position and area of a row that empties
one are tested too is the model's choice (assumption 16). R142, R175: LOAD_POLLPLAN is refused RANGE for more than 32
marks, and otherwise replaces the whole plan, whatever its marks, and sets the next slot to its first, whether or not a
visit is under way: that it does so with no visit under way too is the model's choice (assumption 36). -/
def Obligations.LoadTelegramsAreWhole : Prop :=
  ∀ (s : State) (t : Telegram),
    let up := answeredUplink s.uplink t .accepted [] none
    let whole := fun (c : Instr) (kind : Byte) (n : Nat) (write : List Byte → State → State) (after : State → State) =>
      ToPart s t kind → ∀ rows : List (List Byte), rows ≠ [] → (∀ r ∈ rows, r.length = n) → t.body = rows.flatten →
        (rows.map (·.head?)).Nodup →
        (∀ p r q x, rows = p ++ r :: q → (∀ y ∈ p, ∀ z, ¬RowRefused c s t y z) → RowRefused c s t r x →
          exec c s = .next (answeredOnly s t x)) ∧
        ((∀ r ∈ rows, ∀ z, ¬RowRefused c s t r z) →
          exec c s = .next { after (rows.foldl (fun x r => write r x) s) with uplink := up })
    (∀ c kind n, (c, kind, n) ∈ [(Instr.loadRoster, Config.kLoadRoster, 8), (.loadLanes, Config.kLoadLanes, 6),
        (.loadBays, Config.kLoadBays, 5), (.loadAreas, Config.kLoadAreas, 3)] → ToPart s t kind →
      (t.body = [] ∨ t.body.length % n ≠ 0 → exec c s = .next (answeredOnly s t .range)) ∧
      (∀ i j, i < j → j * n < t.body.length → t.body.length % n = 0 → t.body[i * n]? = t.body[j * n]? →
        exec c s = .next (answeredOnly s t .range))) ∧
    whole .loadRoster Config.kLoadRoster 8 writeRoster id ∧
    whole .loadLanes Config.kLoadLanes 6 writeLane id ∧
    whole .loadAreas Config.kLoadAreas 3 writeArea (tellRelease s) ∧
    (ToPart s t Config.kLoadBays → ∀ rows : List (List Byte), rows ≠ [] → (∀ r ∈ rows, r.length = 5) →
      t.body = rows.flatten → (rows.map (·.head?)).Nodup →
      let at' := fun (r : List Byte) (i : Nat) => (r.getD i 0).toNat
      let place := fun r => 256 * at' r 2 + at' r 3
      let twice := fun r => at' r 1 ≠ 0 ∧
        ((∃ y ∈ rows, at' y 0 < 64 ∧ at' y 0 ≠ at' r 0 ∧ at' y 1 = at' r 1) ∨
          ∃ (i : Fin 64) (x : BayRow), s.bays[i] = some x ∧ x.bay = at' r 1 ∧ ∀ y ∈ r :: rows, at' y 0 ≠ i.val)
      let bad := fun r => 64 ≤ at' r 0 ∨ 120 < at' r 1 ∨ par s Config.QUAY_LEN < place r ∨ 32 ≤ at' r 4 ∨ twice r
      let named := fun r => ∃ (i : Fin 64) (x : BayRow), at' r 0 = i.val ∧ s.bays[i] = some x ∧
        ∃ m ∈ pool s, Touches m x.bay .deck ∨ Touches m x.bay .hold
      (∀ p r q, rows = p ++ r :: q → (∀ y ∈ p, ¬bad y ∧ ¬named y) →
        (bad r → exec .loadBays s = .next (answeredOnly s t .range)) ∧
        (¬bad r → named r → exec .loadBays s = .next (answeredOnly s t .collision))) ∧
      ((∀ r ∈ rows, ¬bad r ∧ ¬named r) → ∃ v, exec .loadBays s = .next { s with uplink := up, bays := v } ∧
        ∀ i : Fin 64, ((∀ r ∈ rows, at' r 0 ≠ i.val) → v[i] = s.bays[i]) ∧
          ∀ r ∈ rows, ∀ a : AreaNo, at' r 0 = i.val → at' r 4 = a.val →
            v[i] = if at' r 1 = 0 then none else some ⟨at' r 1, place r, a⟩)) ∧
    (ToPart s t Config.kLoadPollplan →
      (32 < t.body.length → exec .loadPollplan s = .next (answeredOnly s t .range)) ∧
      (t.body.length ≤ 32 → exec .loadPollplan s = .next { s with
        uplink := up, field := { s.field with plan := t.body, nextSlot := 0 } }))

/-- R25, R46, R83, R119, R127, R141, R145, R153, R175: a LOAD_ROSTER of one row. It is refused RANGE for an entry code
above 1, a parking position above QUAY_LEN, or lane bytes that are no list of at most three different home lanes of use
HOME(k), as many as the count, with 0xFF in the rest; and COLLISION for a crane with moves. Otherwise it enters an ABSENT
crane with a context at its start, its position at the parking position and its smoothed times at their initial values; or
replaces the entry, the position following only where the station is UNKNOWN; or removes the crane, with its lane ownership
and requests, a visit to it, and its forward entries, for each of which a LINE report is offered (R145 against R175,
assumption 15, DEDUCED). A crane above 7 is refused RANGE. The berth state is tested after an entry and a removal, with a
BERTH report where it changes (R131 against R175, assumption 15), and nothing else is reported; that this report comes
before the LINE reports is the model's choice (assumption 10), and the crane that a TO_HOLDING report names its reading
(assumption 25, DEDUCED). The removal of an ABSENT crane changes nothing. That the parking position of a removal row is tested too is the model's choice (assumption 16). -/
def Obligations.LoadRosterRow : Prop :=
  ∀ (s : State) (t : Telegram) (c e p1 p0 count b1 b2 b3 : Byte),
    ToPart s t Config.kLoadRoster → t.body = [c, e, p1, p0, count, b1, b2, b3] →
    (8 ≤ c.toNat → exec .loadRoster s = .next (answeredOnly s t .range)) ∧
    ∀ k : CraneNo, c.toNat = k.val →
    let p := of16 p1 p0
    let fits := fun ls : List LaneNo => count.toNat = ls.length ∧ (ls.map fun l => byte l.val) = [b1, b2, b3].take count.toNat ∧
      ([b1, b2, b3].filter fun b => decide (b ≠ 0xFF)).length = count.toNat ∧ ls.Nodup ∧
      ∀ l ∈ ls, (s.lanes[l]).use = .home k
    let up := answeredUplink s.uplink t .accepted [] none
    let stations := s.stations.set (Station.crane k).index ⟨.unknown, 0⟩
    (1 < e.toNat ∨ par s Config.QUAY_LEN < p → exec .loadRoster s = .next (answeredOnly s t .range)) ∧
    (e = 1 → (∀ ls, ¬fits ls) → exec .loadRoster s = .next (answeredOnly s t .range)) ∧
    (e = 0 ∨ (e = 1 ∧ ∃ ls, fits ls) → p ≤ par s Config.QUAY_LEN → s.queues[k] ≠ [] →
      exec .loadRoster s = .next (answeredOnly s t .collision)) ∧
    (p ≤ par s Config.QUAY_LEN → s.queues[k] = [] →
      (e = 0 → (s.cranes[k]).mode = .absent → exec .loadRoster s = .next (answeredOnly s t .accepted)) ∧
      (∀ ls, e = 1 → fits ls → (s.cranes[k]).mode = .absent →
        ∃ u, exec .loadRoster s = .next u ∧ u = { s with
          uplink := up
          roster := s.roster.set k (some ⟨p, ls⟩)
          cranes := s.cranes.set k { Crane.powerOn with mode := .inService, position := some p }
          cycles := s.cycles.set k (initialCycle s.params)
          stations := stations
          berth := { s.berth with state := if s.berth.state = .running then .running else holdState u }
          reports := (offered (berthReport k s u) s).reports }) ∧
      (∀ ls, e = 1 → fits ls → (s.cranes[k]).mode ≠ .absent →
        exec .loadRoster s = .next { s with
          uplink := up
          roster := s.roster.set k (some ⟨p, ls⟩)
          cranes := s.cranes.set k { s.cranes[k] with
            position := if stationState s (.crane k) = .unknown then some p else (s.cranes[k]).position } }) ∧
      (e = 0 → (s.cranes[k]).mode ≠ .absent →
        ∃ u, exec .loadRoster s = .next u ∧ u = { s with
          uplink := up
          roster := s.roster.set k none
          cranes := s.cranes.set k Crane.powerOn
          stations := stations
          lanes := Vector.ofFn fun l =>
            if (s.lanes[l]).owner = some k then { s.lanes[l] with owner := none, request := none }
            else { s.lanes[l] with request := (s.lanes[l]).request.filter fun q => decide (q.crane ≠ k) }
          field := { s.field with
            visit := s.field.visit.filter fun v => decide (v.station ≠ .crane k)
            forward := s.field.forward.filter fun x => decide (x.mark ≠ (Station.crane k).mark) }
          berth := { s.berth with state := if s.berth.state = .running then .running else holdState u }
          reports := (offered (berthReport k s u ++ (s.field.forward.filter fun x =>
            decide (x.mark = (Station.crane k).mark)).map fun _ => .line (.forwardDiscarded (Station.crane k).mark)) s).reports }))

/-- R82, R83, R101, R175: a LOAD_LANES and a LOAD_BAYS of one row. A lane row is refused RANGE for a field outside its
limits or a use that takes a roster's home lane away, and COLLISION where the slot is not FREE; written, it sets the row
and clears the candidate, the owner and the request, and keeps the slot and the filtered presence. A bay row is refused
RANGE for a field outside its limits or a bay number that another row carries, and COLLISION where a move of the pool names
the bay that stands there; written, bay number 0 empties the row. Nothing else changes. That the position and the area of a
row with bay number 0 are tested too is the model's choice (assumption 16). -/
def Obligations.LoadLaneAndBayRows : Prop :=
  (∀ (s : State) (t : Telegram) (n c t1 t0 pol settle : Byte), ToPart s t Config.kLoadLanes →
    t.body = [n, c, t1, t0, pol, settle] →
    (16 ≤ n.toNat ∨ LaneUse.ofCode c = none ∨ 3000 < of16 t1 t0 ∨ 1 < pol.toNat ∨ settle = 0 ∨ 50 < settle.toNat →
      exec .loadLanes s = .next (answeredOnly s t .range)) ∧
    ∀ (l : LaneNo) (use : LaneUse), n.toNat = l.val → LaneUse.ofCode c = some use → of16 t1 t0 ≤ 3000 → pol.toNat ≤ 1 →
      settle ≠ 0 → settle.toNat ≤ 50 →
      let taken := ∃ (k : CraneNo) (e : RosterEntry), s.roster[k] = some e ∧ l ∈ e.homeLanes ∧ use ≠ .home k
      let free := ∃ b, (s.lanes[l]).slot = .free b
      (taken → exec .loadLanes s = .next (answeredOnly s t .range)) ∧
      (¬taken → ¬free → exec .loadLanes s = .next (answeredOnly s t .collision)) ∧
      (¬taken → free → exec .loadLanes s = .next { s with
        uplink := answeredUplink s.uplink t .accepted [] none
        lanes := s.lanes.set l
          ⟨use, of16 t1 t0, decide (pol = 1), settle.toNat, (s.lanes[l]).slot, (s.lanes[l]).present, none, none, none⟩ })) ∧
  (∀ (s : State) (t : Telegram) (n b p1 p0 a : Byte), ToPart s t Config.kLoadBays → t.body = [n, b, p1, p0, a] →
    (64 ≤ n.toNat ∨ 120 < b.toNat ∨ par s Config.QUAY_LEN < of16 p1 p0 ∨ 32 ≤ a.toNat →
      exec .loadBays s = .next (answeredOnly s t .range)) ∧
    ∀ (i : Fin 64) (area : AreaNo), n.toNat = i.val → b.toNat ≤ 120 → of16 p1 p0 ≤ par s Config.QUAY_LEN →
      a.toNat = area.val →
      let twice := b ≠ 0 ∧ ∃ (j : Fin 64) (x : BayRow), j ≠ i ∧ s.bays[j] = some x ∧ x.bay = b.toNat
      let named := ∃ x, s.bays[i] = some x ∧ ∃ r ∈ pool s, ∃ p ∈ r.points, p.1 = x.bay
      (twice → exec .loadBays s = .next (answeredOnly s t .range)) ∧
      (¬twice → named → exec .loadBays s = .next (answeredOnly s t .collision)) ∧
      (¬twice → ¬named → exec .loadBays s = .next { s with
        uplink := answeredUplink s.uplink t .accepted [] none
        bays := s.bays.set i (if b = 0 then none else some ⟨b.toNat, of16 p1 p0, area⟩) }))

/-- R102, R106, R175: a LOAD_AREAS of one row. It is refused RANGE for an area above 31, a deck state other than LASHED or
OPEN, or a flag other than 0 or 1, and COLLISION where a move of the pool has a point in the area or a gang is present on
it. Otherwise its queued job is removed and the deck state and flag are written, with an AREA report LOADED where the deck
state changes; and an area left OPEN with its flag set goes to LASH_WAIT with a LASH job at the tail and an AREA report,
after which a dispatch pass follows, in every berth state, and nothing else. While the berth is not RUNNING the pass does
nothing. That the pass raises its GANG report follows R106 and R113 against R175 (assumption 15, DEDUCED). -/
def Obligations.LoadAreaRow : Prop :=
  ∀ (s : State) (t : Telegram) (n d f : Byte), ToPart s t Config.kLoadAreas → t.body = [n, d, f] →
    (32 ≤ n.toNat ∨ (d ≠ 0 ∧ d ≠ 3) ∨ 1 < f.toNat → exec .loadAreas s = .next (answeredOnly s t .range)) ∧
    ∀ (a : AreaNo) (deck : Deck), n.toNat = a.val → (d = 0 ∧ deck = .lashed ∨ d = 3 ∧ deck = .opened) → f.toNat ≤ 1 →
      let kept := (∃ r ∈ pool s, a ∈ pointAreas s r) ∨ (s.areas[a]).gang ≠ none
      let others := s.jobs.filter fun j => decide (j.area ≠ a)
      let told := if (s.areas[a]).deck = deck then s else report (.area a (s.areas[a]).deck deck .loaded) s
      let up := answeredUplink s.uplink t .accepted [] none
      let v := { s with
        uplink := up
        areas := s.areas.set a ⟨.lashWait, true, none⟩
        jobs := others ++ [⟨a, .lash⟩]
        reports := (report (.area a .opened .lashWait .lashQueued) told).reports }
      (kept → exec .loadAreas s = .next (answeredOnly s t .collision)) ∧
      (¬kept → ¬(deck = .opened ∧ f = 1) → exec .loadAreas s = .next { s with
        uplink := up
        areas := s.areas.set a ⟨deck, decide (f = 1), none⟩
        jobs := others
        reports := told.reports }) ∧
      (¬kept → deck = .opened → f = 1 → s.berth.state ≠ .running → exec .loadAreas s = .next v) ∧
      (¬kept → deck = .opened → f = 1 →
        let u := { dispatchPass v with uplink := up }
        exec .loadAreas s = .next u ∧ WorkFrame v u)

/-! ### The coordinator's reset, gangs, and the other telegrams -/

/-- R176 (and R23, R84, R98, R99, R118, R119, R127, R140, R141, R145, TABLE 14): RESET_COORD empties the move table, the
gang job queue, the forward and report queues, every crane context but mode, last position and last wind, and every lane
slot; it holds the berth by COMMAND alone; and it keeps the tables, the parameters, the clock, the cycle times, the
presence filters, gang states and the uplink's queue and latches. One RESTART report follows. That a REPORT which a break
had cut off is not sent again is the model's reading (assumption 19, DEDUCED), that an area's wait state goes back
follows R118 against a sentence of R23 (assumption 37, DEDUCED), and that the JOBLIST mark is clear follows TABLE 14 and
R176 against the test of agreement of R38 (assumption 41, DEDUCED). -/
def Obligations.ResetCoordEmpties : Prop :=
  ∀ (s : State) (t : Telegram), ToPart s t Config.kResetCoord →
    (t.body ≠ [] → exec .resetCoord s = .next (answeredOnly s t .range)) ∧
    (t.body = [] → ∃ u, exec .resetCoord s = .next u ∧
      (∀ k : CraneNo, u.queues[k] = [] ∧ u.cranes[k] = { Crane.powerOn with
        mode := (s.cranes[k]).mode, position := (s.cranes[k]).position, wind := (s.cranes[k]).wind }) ∧
      (∀ l : LaneNo, u.lanes[l] = { s.lanes[l] with slot := .free (s.lanes[l]).present, owner := none, request := none }) ∧
      (∀ g : GateNo, u.gateMarks[g] = true) ∧
      (∀ a : AreaNo, u.areas[a] = { s.areas[a] with deck :=
        if (s.areas[a]).deck = .unlashWait then .lashed
        else if (s.areas[a]).deck = .lashWait then .opened else (s.areas[a]).deck }) ∧
      u.jobs = [] ∧
      (∀ g : GangNo, u.gangs[g] = ⟨(s.gangs[g]).state, none,
        match (s.gangs[g]).state with
          | .sent _ => .job
          | _ => .clear⟩) ∧
      u.berth = { s.berth with state := .held, causes := ⟨false, false, true⟩ } ∧
      (∀ i : Fin 22, u.stations[i] = ⟨.unknown, 0⟩) ∧
      u.field = { s.field with nextSlot := 0, forward := [], visit := none } ∧
      u.reports = { s.reports with
        queue := [⟨.restartCoord, 3, s.reports.nextSerial, s.clock, false⟩]
        nextSerial := s.reports.nextSerial + 1
        seen := s.reports.seen.set 13 true } ∧
      (∃ c, u.uplink = answeredUplink { s.uplink with cutOff := c } t .accepted [] none ∧
        (∀ x, s.uplink.cutOff = some (.response x) → c = some (.response x)) ∧
        ((∀ x, s.uplink.cutOff ≠ some (.response x)) → c = none)) ∧
      u.pending = s.pending ∧ u.resetAsserted = s.resetAsserted ∧ u.clock = s.clock ∧ u.params = s.params ∧
      u.cycles = s.cycles ∧ u.roster = s.roster ∧ u.bays = s.bays)

/-- R117, R111, R14: GANG_CLEAR is refused RANGE for a gang above 5 and STATE for a gang that is OFF. Otherwise the gang
becomes OFF with the mark CANCEL and a GANG report CLEARED that carries its job; its job, if any, goes to the head of the
queue, and the area back to its wait state with no gang present and an AREA report RETURNED, and every record with a point in
the area that is not STAGED or ACTIVE is evaluated (one that ends PENDING keeps the ready time it had, assumption 13,
DEDUCED). The cranes with a move made READY by it are evaluated and then a dispatch pass is made (the order by assumption 9,
DEDUCED), in every berth state, and nothing else follows; while the berth is not RUNNING nothing more is reported, and the
jobs and areas stand so. -/
def Obligations.GangClearTaken : Prop :=
  ∀ (s : State) (t : Telegram), ToPart s t Config.kGangClear →
    (t.body.length ≠ 1 → exec .gangClear s = .next (answeredOnly s t .range)) ∧
    (∀ b : Byte, t.body = [b] → 6 ≤ b.toNat → exec .gangClear s = .next (answeredOnly s t .range)) ∧
    ∀ g : GangNo, t.body = [byte g.val] →
      ((s.gangs[g]).state = .off → exec .gangClear s = .next (answeredOnly s t .state)) ∧
      ((s.gangs[g]).state ≠ .off →
        let up := answeredUplink s.uplink t .accepted [] none
        let w := { s with gangs := s.gangs.set g ⟨.off, (s.gangs[g]).serial, .cancel⟩ }
        let returned := fun j : Job =>
          let x := { w with
            jobs := j :: s.jobs
            areas := s.areas.set j.area ⟨j.kind.waiting, (s.areas[j.area]).lashRequired, none⟩ }
          { x with
            queues := Vector.ofFn fun k => (s.queues[k]).map fun r =>
              if r.busy = false ∧ j.area ∈ pointAreas s r then evaluateRecord x r else r
            reports := (offered [.area j.area (s.areas[j.area]).deck j.kind.waiting .returned,
              .gang g (.cleared (some j))] s).reports }
        let v := match (s.gangs[g]).state with
          | .sent j | .working j => returned j
          | .off | .idle => { w with reports := (report (.gang g (.cleared none)) s).reports }
        let u := { dispatchPass (tellRelease s v) with uplink := up }
        exec .gangClear s = .next u ∧ WorkFrame w u ∧
        (s.berth.state ≠ .running →
          (∀ j, (s.gangs[g]).state = .sent j ∨ (s.gangs[g]).state = .working j → u.jobs = j :: s.jobs ∧
            u.areas = s.areas.set j.area ⟨j.kind.waiting, (s.areas[j.area]).lashRequired, none⟩ ∧
            u.reports = (offered [.area j.area (s.areas[j.area]).deck j.kind.waiting .returned,
              .gang g (.cleared (some j))] s).reports) ∧
          ((s.gangs[g]).state = .idle → u.jobs = s.jobs ∧ u.areas = s.areas ∧
            u.reports = (report (.gang g (.cleared none)) s).reports)))

/-- The event's serial is not a duplicate of the last taken (R71). -/
def Fresh (last : Option Byte) (x : Byte) : Prop := ∀ l, last = some l → x ≠ l ∧ (x - l).toNat ≤ 128

/-- Records with a point in area `a` have been evaluated anew, and all others are as they were (R14): the queues keep
their order, a STAGED or ACTIVE record and one with no point in the area stay, and of every other only the state and the
ready time may change, and the state is READY exactly where the record is eligible. -/
def Revalued (a : AreaNo) (s t : State) : Prop :=
  ∀ k : CraneNo, queueNumbers t k = queueNumbers s k ∧
    ∀ r' ∈ t.queues[k], ∃ r ∈ s.queues[k], r' = { r with state := r'.state, readyTime := r'.readyTime } ∧
      (r.busy = true ∨ ¬PointIn s r a → r' = r) ∧
      (r.busy = false → PointIn s r a → r'.state = if eligible t r' then .ready else .pending)

/-- The area's queued work as DONE leaves it to be tested: no record of the pool has a deck point in it. -/
def NoDeckWork (s : State) (a : AreaNo) : Prop := ∀ r ∈ pool s, ¬DeckIn s r a

/-- R110: a matching DONE of a gang that is SENT or WORKING ends its job: the area becomes OPEN after UNLASH and LASHED
after LASH, with no gang present, the gang becomes IDLE with its mark cleared, and an AREA report and a GANG report that
says whether ON_AREA was seen follow; and where the area then needs its next job (R106 after UNLASH, R104 after LASH) that
job joins the tail of the queue, and the area goes to its wait state with an AREA report. R111: the indication takes an
OFF gang to IDLE, an IDLE gang to OFF, and a gang that leaves its job to OFF with the job at the head of the queue, the
area in its wait state with no gang present, and the mark cleared; in any other case it does nothing. R109, R111: a reply
that is not malformed is taken events first, in order, then its indication, so that a DONE and a clear indication leave
the gang OFF; that its evaluations and its dispatch pass follow then is the model's reading (assumption 32, DEDUCED), and
the place of a SERIAL_GAP report before the others its choice (assumption 10). -/
def Obligations.GangSignsOnAndOff : Prop :=
  (∀ (s : State) (g : GangNo) (x : GangEventItem) (j : Job) (seen : Bool),
    Fresh (s.gangs[g]).serial x.serial →
    (s.gangs[g]).state = (if seen then .working j else .sent j) → x.area = j.area → x.event = .done →
    let gap := match (s.gangs[g]).serial with
      | none => []
      | some l => if x.serial = l + 1 then [] else [.gang g (.serialGap (l + 1) x.serial)]
    let t := gangEvent g s x
    let a := j.area
    let was := (s.areas[a]).deck
    let leaves := fun (now deck : Deck) (jobs : List Job) (rs : List Items) =>
      t = { s with
        gangs := s.gangs.set g ⟨.idle, some x.serial, .clear⟩
        areas := s.areas.set a ⟨deck, (s.areas[a]).lashRequired, none⟩
        jobs := jobs
        queues := t.queues
        reports := (offered (gap ++ [.area a was now .done, .gang g (.done j seen)] ++ rs) s).reports } ∧ Revalued a s t
    let lash := (s.areas[a]).lashRequired = true ∧ NoDeckWork s a
    (j.kind = .unlash → ¬lash → leaves .opened .opened s.jobs []) ∧
    (j.kind = .unlash → lash →
      leaves .opened .lashWait (s.jobs ++ [⟨a, .lash⟩]) [.area a .opened .lashWait .lashQueued]) ∧
    (j.kind = .lash → ¬LeadWork s a → leaves .lashed .lashed s.jobs []) ∧
    (j.kind = .lash → LeadWork s a →
      leaves .lashed .unlashWait (s.jobs ++ [⟨a, .unlash⟩]) [.area a .lashed .unlashWait .unlashQueued])) ∧
  (∀ (s : State) (g : GangNo),
    let x := s.gangs[g]
    let off := fun on => takeSignedOn g on s
    (x.state = .off → off true = report (.gang g .signedOn) { s with gangs := s.gangs.set g { x with state := .idle } }) ∧
    (x.state = .idle →
      off false = report (.gang g (.signedOff none)) { s with gangs := s.gangs.set g { x with state := .off } }) ∧
    (∀ j, x.state = .sent j ∨ x.state = .working j →
      off false = { s with
        gangs := s.gangs.set g ⟨.off, x.serial, .clear⟩
        areas := s.areas.set j.area
          ⟨if j.kind = .unlash then .unlashWait else .lashWait, (s.areas[j.area]).lashRequired, none⟩
        jobs := j :: s.jobs
        queues := (off false).queues
        reports := (offered [.area j.area (s.areas[j.area]).deck (if j.kind = .unlash then .unlashWait else .lashWait) .returned,
          .gang g (.signedOff (some j))] s).reports } ∧
      Revalued j.area s (off false)) ∧
    (x.state = .off → off false = s) ∧ (x.state ≠ .off → off true = s)) ∧
  ∀ (s : State) (g : GangNo) (body : List Byte),
    (readGangStatus body = none → gangStatus g body s = report (.gang g .badReply) s) ∧
    ∀ r, readGangStatus body = some r →
      let t := takeSignedOn g r.signedOn (r.events.foldl (gangEvent g) s)
      let owed := ((s.gangs[g]).state = .off ∧ (t.gangs[g]).state = .idle) ∨
        ((s.gangs[g]).state.job.isSome ∧ (t.gangs[g]).state.job = none)
      (owed → gangStatus g body s = dispatchPass (tellRelease s t)) ∧ (¬owed → gangStatus g body s = t) ∧
      (∀ x, r.events = [x] → r.signedOn = false →
        Fresh (s.gangs[g]).serial x.serial →
        (∃ j, ((s.gangs[g]).state = .sent j ∨ (s.gangs[g]).state = .working j) ∧ x.area = j.area) → x.event = .done →
        (gangStatus g body s).gangs[g] = ⟨.off, some x.serial, .clear⟩)

/-- R112: a dispatch pass does nothing while the berth is not RUNNING, where no gang is IDLE with its station ACTIVE, or
where every queued job has a STAGED or ACTIVE move with a point in its area; else it gives the lowest free gang the first
such job in service order, every UNLASH job before every LASH job (R108), and goes on. R113: giving a job takes it from the
queue, makes the gang SENT with the mark JOB and the area UNLASHING or LASHING with the gang present on it, with an AREA and
a GANG report, and every record with a point in the area that is not STAGED or ACTIVE ends PENDING. -/
def Obligations.DispatchPassGivesJobs : Prop :=
  (∀ s : State,
    let free := fun g : GangNo => (s.gangs[g]).state = .idle ∧ stationState s (.gang g) = .active
    let clear := fun j : Job => ∀ r ∈ pool s, r.state = .staged ∨ r.state = .active → ¬PointIn s r j.area
    (s.berth.state ≠ .running ∨ (∀ g, ¬free g) ∨ (∀ j ∈ s.jobs, ¬clear j) → dispatchPass s = s) ∧
    ∀ (g : GangNo) (p : List Job) (j : Job) (q : List Job), s.berth.state = .running → free g → (∀ h < g, ¬free h) →
      s.jobs = p ++ j :: q → clear j → (∀ y ∈ p, y.kind = j.kind → ¬clear y) →
      (j.kind = .lash → ∀ y ∈ s.jobs, y.kind = .unlash → ¬clear y) →
      dispatchPass s = dispatchPass (giveJob g j s)) ∧
  ∀ (s : State) (g : GangNo) (j : Job),
    let a := j.area
    let deck : Deck := if j.kind = .unlash then .unlashing else .lashing
    let t := giveJob g j s
    t = { s with
      gangs := s.gangs.set g ⟨.sent j, (s.gangs[g]).serial, .job⟩
      areas := s.areas.set a ⟨deck, (s.areas[a]).lashRequired, some g⟩
      jobs := s.jobs.filter fun y => decide (y.area ≠ a)
      queues := t.queues
      reports := (offered [.area a (s.areas[a]).deck deck .dispatched, .gang g (.dispatched j)] s).reports } ∧
    Revalued a s t ∧ ∀ r ∈ pool t, r.busy = false → PointIn t r a → r.state = .pending

/-- R145, R160, TABLE 58: a pass-through telegram for a mark in use joins the forward queue without a RESPONSE, or is
dropped with a LINE report where that holds 16; a kind that its mark does not take is refused UNKNOWN; and a telegram for
a mark that is not in use, with a pass-through kind for an ABSENT crane, is dropped with a LINE report. Nothing else
changes. -/
def Obligations.RouterDisposesOfOtherTelegrams : Prop :=
  ∀ (s : State) (t : Telegram), AtHead s t →
    let toPart := t.mark.toNat = par s Config.DEVICE_MARK
    let passed := 0x80 ≤ t.kind.toNat ∧ t.kind.toNat ≤ 0xBF
    (∀ st, stationOfMark t.mark = some st → ¬toPart → passed → (∀ k, st = .crane k → (s.cranes[k]).mode ≠ .absent) →
      (s.field.forward.length < 16 → exec .passThrough s = .next { s with
        uplink := takenUplink s.uplink
        field := { s.field with forward := s.field.forward ++ [t] } }) ∧
      (16 ≤ s.field.forward.length → exec .passThrough s = .next { s with
        uplink := takenUplink s.uplink
        reports := (report (.line (.forwardFull t.mark)) s).reports })) ∧
    (toPart → t.kind.toNat < 0x20 ∨ 0x2D < t.kind.toNat →
      exec .routeRefusedUnknown s = .next (answeredOnly s t .unknown)) ∧
    (∀ st, stationOfMark t.mark = some st → ¬toPart → ¬passed →
      ((∃ k, st = .crane k) → t.kind ∉ [0x10, 0x11, 0x12, 0x18]) →
      exec .routeRefusedUnknown s = .next (answeredOnly s t .unknown)) ∧
    (¬toPart → (stationOfMark t.mark = none ∨
        (passed ∧ ∃ k, stationOfMark t.mark = some (.crane k) ∧ (s.cranes[k]).mode = .absent)) →
      exec .unusedMark s = .next { s with
        uplink := takenUplink s.uplink
        reports := (report (.line (.unusedMark t.mark t.kind)) s).reports })

/-! ### The field line -/

/-- The kinds and bodies of the telegrams that a station's marks have pending, in the order of TABLE 47. -/
def pendingOutput (s : State) : Station → List (Byte × List Byte)
  | .crane k =>
    (if (s.cranes[k]).jobMark = .clear then [] else [(0x41, joblistBody s k)]) ++
      ((s.cranes[k]).waitMark.map fun r => (0x42, [r.code])).toList
  | .gang g => if (s.gangs[g]).mark = .clear then [] else [(0x43, gangJobBody s g)]
  | .gate u => if s.gateMarks[u] then [(0x44, gateLightBody s u)] else []

/-- R142, R143, R144, R145: a visit is made to the first slot, from the next slot on, that is not passed over. It sends
the station's pending output, then at most two of the forward entries for it, unless it is SILENT, in their order and with
their own sequence numbers, then a POLL with the last serial taken; the telegrams that the part builds take the field
sequence numbers in turn. The WAIT and GATE_LIGHT marks sent are cleared. No visit is begun while one is under way, or
where every slot is passed over. That the visit's telegrams are all built when it begins is the model's choice
(assumption 20). R39, R115, R97, TABLE 55: the bodies, byte by byte. A JOBLIST carries the active and then the staged move
where the mark is FULL, each with its number, kind, lane (0xFF for none) and legs, the legs as READ shows them (TABLE 53),
and nothing where the mark is EMPTY. A GANG_JOB for the mark JOB carries the kind and area of the gang's job and then the bay
numbers of the area's rows of the bay map in ascending order, and for the mark CANCEL a kind of 0 alone. A GATE_LIGHT carries
the signals of its even and of its odd lane: CLOSED for a lane that is UNUSED or whose slot is FREE or RESERVED, ENTER for
CALLED, STAY for ARRIVED and LEAVE for WORKED. -/
def Obligations.VisitSendsInOrder : Prop :=
  (∀ (s : State) (k : CraneNo),
    let c := s.cranes[k]
    let entry := fun r : MoveRecord => [byte (r.number.toNat / 256), byte r.number.toNat, r.kind.code,
      (r.lane.map fun l => byte l.val).getD 0xFF] ++ r.legs.flatMap Leg.bytes
    let held := fun n : Option MoveNo => ((n.bind (findIn s k)).map entry).getD []
    (c.jobMark = .full → joblistBody s k = held c.active ++ held c.staged) ∧
    (c.jobMark = .empty → joblistBody s k = [])) ∧
  (∀ (s : State) (g : GangNo),
    (∀ j, (s.gangs[g]).mark = .job → (s.gangs[g]).state = .sent j ∨ (s.gangs[g]).state = .working j →
      ∃ bays : List Nat, bays.Pairwise (· ≤ ·) ∧
        bays.Perm (s.bays.toList.filterMap fun x => (x.filter fun y => decide (y.area = j.area)).map (·.bay)) ∧
        gangJobBody s g = [if j.kind = .unlash then 1 else 2, byte j.area.val] ++ bays.map byte) ∧
    ((s.gangs[g]).mark = .cancel → gangJobBody s g = [0])) ∧
  (∀ (s : State) (u : GateNo) (e o : LaneNo), e.val = 2 * u.val → o.val = 2 * u.val + 1 →
    let signal := fun l : LaneNo => if (s.lanes[l]).use = .unused then (0 : Byte) else match (s.lanes[l]).slot with
      | .free _ | .reserved _ => 0
      | .called _ => 1
      | .arrived _ => 2
      | .worked => 3
    gateLightBody s u = [signal e, signal o]) ∧
  ∀ s : State, s.resetAsserted = false →
    let n := s.field.plan.length
    let slot := fun i => s.field.plan.getD ((s.field.nextSlot + i) % n) 0
    let passedOver := fun m : Byte =>
      stationOfMark m = none ∨ ∃ k, stationOfMark m = some (.crane k) ∧ (s.cranes[k]).mode = .absent
    (s.field.visit.isSome ∨ (∀ i < n, passedOver (slot i)) → exec .visit s = .next s) ∧
    (∀ (i : Nat) (st : Station), s.field.visit = none → i < n → (∀ j < i, passedOver (slot j)) →
      ¬passedOver (slot i) → stationOfMark (slot i) = some st →
      let out := pendingOutput s st
      let mine := s.field.forward.filter fun x => decide (x.mark = st.mark)
      let go := if stationState s st = .silent then [] else mine.take 2
      let serial := match st with
        | .crane k => ((s.cranes[k]).serial).getD 0
        | .gang g => ((s.gangs[g]).serial).getD 0
        | .gate _ => 0
      ∃ rest, rest.Sublist s.field.forward ∧
        (rest.filter fun x => decide (x.mark ≠ st.mark)) = (s.field.forward.filter fun x => decide (x.mark ≠ st.mark)) ∧
        (rest.filter fun x => decide (x.mark = st.mark)) = mine.drop go.length ∧
        exec .visit s = .next { s with
          field := { s.field with
            nextSlot := ((s.field.nextSlot + i) % n + 1) % n
            sequence := s.field.sequence + byte (out.length + 1)
            forward := rest
            visit := some ⟨st, .sending,
              (out.zipIdx.map fun (o, d) => ⟨st.mark, o.1, s.field.sequence + byte d, o.2⟩) ++ go ++
                [⟨st.mark, 0x40, s.field.sequence + byte out.length, [serial]⟩],
              fieldSettings s.params⟩ }
          cranes := match st with
            | .crane k => s.cranes.set k { s.cranes[k] with waitMark := none }
            | .gang _ | .gate _ => s.cranes
          gateMarks := match st with
            | .gate u => s.gateMarks.set u false
            | .crane _ | .gang _ => s.gateMarks })

/-- What a miss of station `st` makes of state `s` (R150, R151): the count rises to at most 3; where it reaches 3 and the
station was not SILENT, it becomes SILENT with a STATION report, and for a crane the silence start is set and the berth
state tested, with a BERTH report after the STATION report where it changes. -/
def Missed (st : Station) (s t : State) : Prop :=
  let x := s.stations[st.index]
  let v := report (.stationSilent st x.state) { s with stations := s.stations.set st.index ⟨.silent, 3⟩ }
  (x.state = .silent ∨ x.missed < 2 → t = { s with stations := s.stations.set st.index ⟨x.state, min 3 (x.missed + 1)⟩ }) ∧
  (x.state ≠ .silent → 2 ≤ x.missed → (∀ k, st ≠ .crane k) → t = v) ∧
  (∀ k, x.state ≠ .silent → 2 ≤ x.missed → st = .crane k →
    t = { v with
      cranes := s.cranes.set k { s.cranes[k] with silenceStart := some s.clock }
      berth := { s.berth with state := if s.berth.state = .running then .running else holdState t }
      reports := (offered (berthReport k s t) v).reports })

/-- R146, R147 cases 1 and 2, R150: after the POLL the reply window opens, REPLY_WINDOW ms long. In it an error-free mark
character begins the reply, whatever mark it carries, and any other character is discarded. A window that closes with none
ends the visit with a miss; a gap in a reply ends it with a FIELD_BAD report and a miss. R147 cases 2 to 5, R149: a reply
with a framing or parity error, a length above 120, a new mark character or a check that fails, with another station's
mark, or of a kind that is neither the station's status nor a pass-through, is a miss with a FIELD_BAD report that carries
the kind of fault. A pass-through reply is reported as PASS_UP, whole, and is neither a miss nor a valid reply. The visit
ends in every case. The model's choices: that a command with no visit, or in another phase of it, changes nothing
(assumption 3), that the LINE report of a third miss comes before the STATION report (assumption 10), the crane that a
TO_HOLDING report names (assumption 25, DEDUCED), and that REPLY_WINDOW is read at POLL_SENT (assumption 20). -/
def Obligations.RepliesMissedBadOrPassedUp : Prop :=
  (∀ s : State, s.resetAsserted = false →
    (∀ c : RxChar, s.field.visit = none → exec .pollSent s = .next s ∧ exec .replyWindowClose s = .next s ∧
      exec .fieldGap s = .next s ∧ exec (.replyMarkCharacter c) s = .next s) ∧
    ∀ v : Visit, s.field.visit = some v →
      (v.phase = .sending → exec .pollSent s = .next { s with
        field := { s.field with visit := some { v with phase := .window (par s Config.REPLY_WINDOW) } } }) ∧
      (v.phase ≠ .sending → exec .pollSent s = .next s) ∧
      (∀ (c : RxChar) (ms : Nat), v.phase = .window ms → exec (.replyMarkCharacter c) s = .next
        (if c.mark = true ∧ c.stop = true ∧ parityError v.settings c = false then
          { s with field := { s.field with visit := some { v with phase := .collecting c.data } } }
        else s)) ∧
      (∀ ms, v.phase = .window ms →
        ∃ t, exec .replyWindowClose s = .next t ∧ Missed v.station { s with field := { s.field with visit := none } } t) ∧
      ((∀ ms, v.phase ≠ .window ms) → exec .replyWindowClose s = .next s ∧
        ∀ c : RxChar, exec (.replyMarkCharacter c) s = .next s) ∧
      (∀ m, v.phase = .collecting m → ∃ t, exec .fieldGap s = .next t ∧
        Missed v.station
          (report (.line (.fieldBad v.station.mark .incomplete)) { s with field := { s.field with visit := none } }) t) ∧
      ((∀ m, v.phase ≠ .collecting m) → exec .fieldGap s = .next s)) ∧
  ∀ (s : State) (v : Visit) (m : Byte), s.resetAsserted = false → s.field.visit = some v → v.phase = .collecting m →
    let st := v.station
    let w := { s with field := { s.field with visit := none } }
    let bad := fun (e : ReplyEnd) (f : FieldFault) =>
      ∃ t, exec (.fieldReplyEnd e) s = .next t ∧ Missed st (report (.line (.fieldBad st.mark f)) w) t
    bad .framing .framing ∧ (v.settings.parity ≠ .none → bad .parity .parity) ∧
    (∀ n : Byte, 120 < n.toNat → bad (.length n) .length) ∧ bad .newMark .incomplete ∧
    ∀ (kind sequence : Byte) (body : List Byte), body.length ≤ 120 →
      let e := ReplyEnd.telegram kind sequence body (checkOf kind sequence body)
      let passed := 0x80 ≤ kind.toNat ∧ kind.toNat ≤ 0xBF
      (∀ x, x ≠ checkOf kind sequence body → bad (.telegram kind sequence body x) .check) ∧
      (m ≠ st.mark → bad e (.wrongMark m)) ∧
      (m = st.mark → passed →
        exec (.fieldReplyEnd e) s = .next (report (.passUp m kind sequence body) w)) ∧
      (m = st.mark → ¬passed → kind ≠ statusKind st → bad e (.wrongKind kind))

/-- R148, R151: a valid reply ends the visit, sets the station's missed count to 0 and makes it ACTIVE, and changes no
other station, table, parameter or clock. A crane that was not ACTIVE has its silence start cleared, the berth state
tested, and is evaluated; an IDLE gang that was not has a dispatch pass made; a gate that was not has its candidates
cleared and its GATE_LIGHT mark set; a station that was SILENT is reported as returned, before a BERTH report of the test.
The reply is then handed to its
owner, a gang's mark CANCEL being cleared where the visit had sent it (R115), and a body that the owner finds malformed is
reported BAD_REPLY (R64, R91, R109): that it clears CANCEL too is the model's reading (assumption 35, DEDUCED), and that a
CANCEL set anew within the visit is cleared with the one sent is its choice (assumption 39). -/
def Obligations.ValidReplyTaken : Prop :=
  ∀ (s : State) (v : Visit) (sequence : Byte) (body : List Byte), s.resetAsserted = false → s.field.visit = some v →
    v.phase = .collecting v.station.mark → body.length ≤ 120 →
    let st := v.station
    let x := s.stations[st.index]
    let kind := statusKind st
    let e := ReplyEnd.telegram kind sequence body (checkOf kind sequence body)
    let w := { s with
      field := { s.field with visit := none }
      stations := s.stations.set st.index ⟨.active, 0⟩
      reports := if x.state = .silent then (report (.stationReturned st .silent) s).reports else s.reports }
    (∃ t, exec (.fieldReplyEnd e) s = .next t ∧ t.stations = w.stations ∧ t.field = w.field ∧ t.uplink = s.uplink ∧
      t.clock = s.clock ∧ t.params = s.params ∧ t.roster = s.roster ∧ t.bays = s.bays ∧ t.pending = s.pending) ∧
    (∀ k, st = .crane k → ∃ y,
      (x.state = .active → y = w) ∧
      (x.state ≠ .active → y = { w with
        cranes := s.cranes.set k { s.cranes[k] with silenceStart := none }
        berth := { s.berth with state := if s.berth.state = .running then .running else holdState y }
        reports := (offered (berthReport k s y) w).reports }) ∧
      let z := if x.state = .active then y else evaluate k y
      (readCraneStatus body = none → exec (.fieldReplyEnd e) s = .next (report (.crane k .badReply) z)) ∧
      exec (.fieldReplyEnd e) s = .next (craneStatus k body z)) ∧
    (∀ g, st = .gang g →
      let y := if x.state ≠ .active ∧ (s.gangs[g]).state = .idle then dispatchPass w else w
      let z := if (∃ t ∈ v.sent, t.kind = 0x43 ∧ t.body = [0]) ∧ (y.gangs[g]).mark = .cancel then
          { y with gangs := y.gangs.set g { y.gangs[g] with mark := .clear } }
        else y
      (readGangStatus body = none → exec (.fieldReplyEnd e) s = .next (report (.gang g .badReply) z)) ∧
      exec (.fieldReplyEnd e) s = .next (gangStatus g body z)) ∧
    (∀ u, st = .gate u →
      let z := if x.state = .active then w
        else
          let z := modLane (oddLane u) (fun l => { l with candidate := none })
            (modLane (evenLane u) (fun l => { l with candidate := none }) w)
          { z with gateMarks := z.gateMarks.set u true }
      (readGateStatus body = none → exec (.fieldReplyEnd e) s = .next (report (.lane (.badReply u)) z)) ∧
      (∀ a b, readGateStatus body = some (a, b) →
        exec (.fieldReplyEnd e) s = .next (gateLane (oddLane u) b (gateLane (evenLane u) a z))))

/-! ### Crane replies -/

/-- R64, TABLE 55: a crane status body is read where its phase is a code of TABLE 56, it declares at most four events, its
length agrees, and each event has a kind and a box mask of TABLE 56; the wind saturates at 600, and a move number 0 is
none. Any other is malformed, and is reported BAD_REPLY with no more effect. R65: a reply is taken in the order position,
wind, phase, events in list order, view, job-wanted indication. R66: the position is clamped to QUAY_LEN and stored, and a
change of an idle crane's calls for the evaluation of every other crane. R67, R133, R137: the wind is stored, and where the
crane counts it restarts the calm timer from WIND_RESUME up, and from WIND_STOP up adds the cause WIND, which enters a hold
while the berth is RUNNING. R68: a phase FAULT sets the fault flag with a CRANE report, any other clears it with a CRANE
report and an evaluation, and a phase that changes nothing raises none. -/
def Obligations.CraneReplyTakenInOrder : Prop :=
  (∀ (k : CraneNo) (s : State) (body : List Byte),
    let layout := fun (phase p1 p0 w1 w0 a1 a0 g1 g0 want : Byte) (events : List CraneEventItem) =>
      phase.toNat ≤ 3 ∧ events.length ≤ 4 ∧ (∀ x ∈ events, x.box1 = true ∨ x.box2 = true) ∧
      body = [phase, p1, p0, w1, w0, a1, a0, g1, g0, want, byte events.length] ++ events.flatMap fun x =>
        [x.serial, x.event.code, byte (x.move.toNat / 256), byte x.move.toNat, byte (x.box1.toNat + 2 * x.box2.toNat)]
    ((∀ phase p1 p0 w1 w0 a1 a0 g1 g0 want events, ¬layout phase p1 p0 w1 w0 a1 a0 g1 g0 want events) →
      craneStatus k body s = report (.crane k .badReply) s) ∧
    (∀ phase p1 p0 w1 w0 a1 a0 g1 g0 want events, layout phase p1 p0 w1 w0 a1 a0 g1 g0 want events →
      let number := fun hi lo : Byte => if hi = 0 ∧ lo = 0 then none else some (BitVec.ofNat 16 (256 * hi.toNat + lo.toNat))
      let view : View := ⟨number a1 a0, number g1 g0⟩
      let t := takePhase k (decide (phase = 3)) (takeWind k (min (of16 w1 w0) 600) (takePosition k (of16 p1 p0) s))
      craneStatus k body s =
        takeJobWanted k (decide (want ≠ 0)) view (takeView k view (events.foldl (craneEvent k) t)))) ∧
  (∀ (k : CraneNo) (n : Nat) (s : State),
    let p := min n (par s Config.QUAY_LEN)
    let t := { s with cranes := s.cranes.set k { s.cranes[k] with position := some p } }
    let told := (s.cranes[k]).position ≠ some p ∧ ∀ r ∈ s.queues[k], r.state ≠ .staged ∧ r.state ≠ .active
    (told → takePosition k n s = evaluateMany (cranes.filter fun j => decide (j ≠ k)) t) ∧
    (¬told → takePosition k n s = t)) ∧
  (∀ (k : CraneNo) (w : Nat) (s : State), par s Config.WIND_RESUME ≤ par s Config.WIND_STOP →
    let t := { s with cranes := s.cranes.set k { s.cranes[k] with wind := w } }
    let u := { t with berth := { s.berth with calmStart := some s.clock } }
    let counts := (s.cranes[k]).mode = .inService ∧ stationState s (.crane k) ≠ .silent
    (¬counts ∨ w < par s Config.WIND_RESUME → takeWind k w s = t) ∧
    (counts → par s Config.WIND_RESUME ≤ w → w < par s Config.WIND_STOP → takeWind k w s = u) ∧
    (counts → par s Config.WIND_STOP ≤ w →
      (s.berth.causes.wind = true → takeWind k w s = u) ∧
      (s.berth.causes.wind = false → s.berth.state ≠ .running →
        let set := { s.berth.causes with wind := true }
        takeWind k w s = report (.berth (.causeAdded s.berth.state .wind set)) { u with
          berth := { u.berth with causes := set } }) ∧
      (s.berth.causes = ⟨false, false, false⟩ → s.berth.state = .running → HoldEntered .wind u (takeWind k w s)))) ∧
  ∀ (k : CraneNo) (s : State),
    let put := fun f => { s with cranes := s.cranes.set k { s.cranes[k] with fault := f } }
    takePhase k (s.cranes[k]).fault s = s ∧
    ((s.cranes[k]).fault = false → takePhase k true s = report (.crane k .fault) (put true)) ∧
    ((s.cranes[k]).fault = true → takePhase k false s = evaluate k (report (.crane k .faultCleared) (put false)))

/-- R69, R38, R40: the view of a reply is stored and agreement is tested, after a CRANE report UNKNOWN_MOVE for each held
number that is not in the pool and that the view before did not name in the same place (one for each place, and the number
alone compared: assumption 8, DEDUCED). R41 to R43: an indication with no held active move sets the job-wanted flag and
has the crane evaluated; where its active slot then stands empty it is answered, in mode IMMEDIATE by a WAIT mark with the
blocking reason found then, in mode DEFER by the start of a stopped defer timer. Any other reply clears the flag, the
timer and the WAIT mark. -/
def Obligations.ViewAndJobWantedTaken : Prop :=
  (∀ (k : CraneNo) (v : View) (s : State),
    let c := s.cranes[k]
    let w := { s with cranes := s.cranes.set k { c with view := some v } }
    let fresh := fun before now : Option MoveNo => match now with
      | some n => if n ∈ (pool s).map (·.number) ∨ before = some n then [] else [Items.crane k (.unknownMove n)]
      | none => []
    takeView k v s = { w with
      cranes := s.cranes.set k { c with view := some v, jobMark := agreement w k }
      reports := (offered (fresh (c.view.bind (·.active)) v.active ++ fresh (c.view.bind (·.staged)) v.staged) s).reports }) ∧
  ∀ (k : CraneNo) (wanted : Bool) (v : View) (s : State),
    (wanted = false ∨ v.active.isSome → takeJobWanted k wanted v s = { s with
      cranes := s.cranes.set k { s.cranes[k] with jobWanted := false, deferStart := none, waitMark := none } }) ∧
    (wanted = true → v.active = none →
      let t := evaluate k { s with cranes := s.cranes.set k { s.cranes[k] with jobWanted := true } }
      let c := t.cranes[k]
      (c.active.isSome → takeJobWanted k wanted v s = t) ∧
      (c.active = none → par s Config.ANSWER_MODE = 0 → takeJobWanted k wanted v s =
        { t with cranes := t.cranes.set k { c with waitMark := some (blockReason t k) } }) ∧
      (c.active = none → par s Config.ANSWER_MODE ≠ 0 → takeJobWanted k wanted v s =
        { t with cranes := t.cranes.set k { c with deferStart := some (c.deferStart.getD s.clock) } }))

/-! ### Events of cranes and gangs -/

/-- The boxes of leg `l` that the mask of event `x` names: at a pick those the leg has, at a set those of the lift set
(R75). -/
def boxesNamed (l : Leg) (p : Progress) (x : CraneEventItem) : Bool × Bool :=
  if x.event = .pickV ∨ x.event = .pickL then (x.box1, x.box2 && l.box2.isSome) else (x.box1 && p.lift1, x.box2 && p.lift2)

/-- The boxes that event `x` leaves: those that the leg has at a pick, or the lift set at a set, and the mask does not
name (R75). -/
def boxesNotNamed (l : Leg) (p : Progress) (x : CraneEventItem) : List Box :=
  let pick := x.event = .pickV ∨ x.event = .pickL
  (if x.box1 = false ∧ (pick ∨ p.lift1 = true) then [l.box1] else []) ++
    (if x.box2 = false ∧ (pick ∨ p.lift2 = true) then l.box2.toList else [])

/-- The state once the serial `x` of a fresh event of crane `k` has been taken, after a SERIAL_GAP report where it is not
the successor of the last (R70, R71). -/
def serialTaken (k : CraneNo) (x : Byte) (s : State) : State :=
  let v := { s with cranes := s.cranes.set k { s.cranes[k] with serial := some x } }
  match (s.cranes[k]).serial with
  | none => v
  | some l => if x = l + 1 then v else report (.crane k (.serialGap (l + 1) x)) v

/-- R70, R71, R74, R75, R109, R110: an event whose serial is the last taken, or lies 1 to 127 before it, is ignored. Any
other is taken, and its serial becomes the last taken, after a SERIAL_GAP report where it is not the successor. Taken, an
event of a crane with no ACTIVE move, that names another move, that is not the next expected event, or whose mask names no
box of the leg at a pick or of the lift set at a set, and an event of a gang that is not SENT or WORKING on its area, or
an ON_AREA while WORKING, is consumed with an EVENT_FAULT report and nothing more. A matching ON_AREA makes the gang
WORKING and clears its mark. That the SERIAL_GAP report comes before the event's own reports is the model's choice
(assumption 10). -/
def Obligations.EventSerialsAndFaults : Prop :=
  (∀ (s : State) (k : CraneNo) (x : CraneEventItem), ¬Fresh (s.cranes[k]).serial x.serial → craneEvent k s x = s) ∧
  (∀ (s : State) (g : GangNo) (x : GangEventItem), ¬Fresh (s.gangs[g]).serial x.serial → gangEvent g s x = s) ∧
  (∀ (s : State) (k : CraneNo) (x : CraneEventItem), Fresh (s.cranes[k]).serial x.serial →
    let w := serialTaken k x.serial s
    (activeRecord s k = none →
      craneEvent k s x = report (.crane k (.eventFault x.serial x.event x.move none none)) w) ∧
    (∀ r p, activeRecord s k = some r → r.progress = some p →
      (x.move ≠ r.number ∨ x.event ≠ p.next ∨ ∀ l, r.legOf x.event = some l → boxesNamed l p x = (false, false)) →
      craneEvent k s x = report (.crane k (.eventFault x.serial x.event x.move (some r.number) (some p.next))) w)) ∧
  (∀ (s : State) (g : GangNo) (x : GangEventItem), Fresh (s.gangs[g]).serial x.serial →
    let v := { s with gangs := s.gangs.set g { s.gangs[g] with serial := some x.serial } }
    let w := match (s.gangs[g]).serial with
      | none => v
      | some l => if x.serial = l + 1 then v else report (.gang g (.serialGap (l + 1) x.serial)) v
    ((∀ j, (s.gangs[g]).state = .sent j → x.area ≠ j.area) →
      (∀ j, (s.gangs[g]).state = .working j → x.area ≠ j.area ∨ x.event = .onArea) →
      gangEvent g s x = report (.gang g (.eventFault x.serial x.event x.area (s.gangs[g]).state)) w) ∧
    (∀ j, (s.gangs[g]).state = .sent j → x.area = j.area → x.event = .onArea →
      gangEvent g s x = report (.gang g (.onArea j.area))
        { w with gangs := w.gangs.set g ⟨.working j, some x.serial, .clear⟩ }))

/-- Event `x` of crane `k` is taken and matches the ACTIVE move `r` at its leg `l` and progress `p` (R71, R72, R75). -/
structure EventMatches (s : State) (k : CraneNo) (x : CraneEventItem) (r : MoveRecord) (l : Leg) (p : Progress) : Prop where
  fresh : Fresh (s.cranes[k]).serial x.serial
  active : activeRecord s k = some r
  progress : r.progress = some p
  leg : r.legOf x.event = some l
  move : x.move = r.number
  next : x.event = p.next
  boxes : boxesNamed l p x ≠ (false, false)

/-- The state once the serial of a matching event has been taken and a BOX_LEFT report offered for each box that it leaves
(R71, R75), after the SERIAL_GAP report, if any (assumption 10). -/
def boxesReported (k : CraneNo) (r : MoveRecord) (l : Leg) (p : Progress) (x : CraneEventItem) (s : State) : State :=
  offered ((boxesNotNamed l p x).map fun b => .crane k (.boxLeft r.number x.event b.identifier)) (serialTaken k x.serial s)

/-- The last lane event of move `r` in lane `n`: the slot becomes WORKED and the move's hold and call issued are cleared,
after a LANE report PRESENCE_NOT_SEEN where the slot is CALLED (R76, R77). -/
def slotDone (n : LaneNo) (r : MoveRecord) (s : State) : State :=
  offered (if (s.lanes[n]).slot = .called r.number then [.lane (.presenceNotSeen n r.number)] else [])
    (modMove r.number (fun y => { y with lane := none, called := false }) (slotWritten n .worked s))

/-- R72, R75 to R77: an event that is taken and matches, and is not the final event of the move's kind, advances the leg
progress to the next event of TABLE 24 with the boxes that its mask names, after a BOX_LEFT report for each box left. A
PICK_L goes to the slot that the move holds: of a LOAD it is the last lane event, and the slot becomes WORKED and the move
holds none; of a DUAL the slot stays ARRIVED; and a slot still CALLED first becomes ARRIVED with a LANE report. Nothing else
changes. That a set leaves the boxes set in the lift set is the model's reading (assumption 14, DEDUCED), and the place of a
SERIAL_GAP report before the others its choice (assumption 10). -/
def Obligations.MatchingEventsAdvance : Prop :=
  ∀ (s : State) (k : CraneNo) (x : CraneEventItem) (r : MoveRecord) (l : Leg) (p : Progress) (e : CraneEvent),
    EventMatches s k x r l p → ((pool s).map (·.number)).Nodup → r.kind.after x.event = some e →
    let boxes := boxesNamed l p x
    let t := modMove r.number (fun y => { y with progress := some ⟨e, boxes.1, boxes.2⟩ }) (boxesReported k r l p x s)
    (x.event ≠ .pickL ∨ r.lane = none → craneEvent k s x = t) ∧
    (∀ n, x.event = .pickL → r.lane = some n → (s.lanes[n]).slot = .called r.number ∨ (s.lanes[n]).slot = .arrived r.number →
      (r.kind = .load → craneEvent k s x = slotDone n r t) ∧
      (r.kind = .dual → (s.lanes[n]).slot = .arrived r.number → craneEvent k s x = t) ∧
      (r.kind = .dual → (s.lanes[n]).slot = .called r.number →
        craneEvent k s x = report (.lane (.presenceNotSeen n r.number)) (slotWritten n (.arrived r.number) t)))

/-- State `t` is what the completion of crane `k`'s ACTIVE move `r` makes of `s` by the steps of R78, in their order: the
measurement, the freeing with its MOVE_DONE report, the promotion, the tests of a pending directive and of the berth; the
test of agreement and the evaluation of every crane (R37); the dispatch pass for the emptied slot (R112); and the call check
of the crane, which is not made twice where the evaluation made it for an activation (R56). The orders that the rules leave
open are those of assumptions 9, 10 and 30, and those of the call check of assumptions 12 and 31. -/
def Completed (k : CraneNo) (r : MoveRecord) (s t : State) : Prop :=
  let freed := report (.moveDone r.number k) (freeRecord k r (measure k r s))
  let v := testBerth (some k) (testAcceptance k (promoteStaged k freed))
  let w := dispatchPass (evaluateMany cranes (testAgreement k v))
  ((v.cranes[k]).active = none → (w.cranes[k]).active.isSome → t = w) ∧
  ((v.cranes[k]).active.isSome ∨ (w.cranes[k]).active = none → CallChecked k w t)

/-- R75 to R78, R16, R21, R37, R48 to R50, R121: the final event, where it is taken and matches, offers a BOX_LEFT report
for each box left, makes the slot that a DISCHARGE or DUAL holds WORKED, and completes the move: the record alone leaves
the pool, a MOVE_DONE report is offered, the last completion is the quay clock, and the smoothed time for the kind is
updated by the time from the later of the last completion and the activation (of two clock values the one of smaller age,
assumption 23, DEDUCED), unless the move overlapped a hold, was abandoned, or is the crane's first. The STAGED move, if
any, becomes ACTIVE with its activation time, its first event and its hold-overlap flag; where there is none, a pending
directive is accepted with a DIRECTIVE report, and a WITHDRAW makes the crane WITHDRAWN with its requests withdrawn and
its moves' slots released. Agreement stands tested at the end. Then every crane is evaluated, a dispatch pass made, and
the call check of the crane, in places that are the model's choice (assumptions 9 and 30); in that check stale requests
are withdrawn once, at its start (assumption 12, DEDUCED), and one evaluation follows the last move of the horizon, the
model's choice (assumption 31). The boxes named at a set are those of the lift set of the leg's pick (assumption 14,
DEDUCED). -/
def Obligations.FinalEventCompletes : Prop :=
  ∀ (s : State) (k : CraneNo) (x : CraneEventItem) (r : MoveRecord) (l : Leg) (p : Progress) (a : Clock),
    EventMatches s k x r l p → ((pool s).map (·.number)).Nodup → r.kind.after x.event = none → r.activation = some a →
    let t := craneEvent k s x
    let b := boxesReported k r l p x s
    let c := s.cranes[k]
    let offers := fun i : Fin 14 => t.reports.seen[i] = true ∨ t.reports.lost[i] = true
    (x.event = .setV ∨ r.lane = none → Completed k r b t) ∧
    (∀ n, x.event = .setL → r.lane = some n → r.kind = .discharge ∨ r.kind = .dual →
      (s.lanes[n]).slot = .called r.number ∨ (s.lanes[n]).slot = .arrived r.number →
      Completed k { r with lane := none, called := false } (slotDone n r b) t ∧ (t.lanes[n]).slot = .worked) ∧
    (∀ n, n ∈ (pool t).map (·.number) ↔ n ∈ (pool s).map (·.number) ∧ n ≠ r.number) ∧ offers 3 ∧
    (t.cranes[k]).lastCompletion = some s.clock ∧ (t.cranes[k]).jobMark = agreement t k ∧
    (r.holdOverlap = true ∨ r.abandoned = true ∨ c.lastCompletion = none → t.cycles = s.cycles) ∧
    (∀ y, r.holdOverlap = false → r.abandoned = false → c.lastCompletion = some y →
      let m := min (age s.clock y) (age s.clock a)
      t.cycles = s.cycles.set k
        (if r.kind = .dual then { s.cycles[k] with dual := smooth s (s.cycles[k]).dual m }
          else { s.cycles[k] with single := smooth s (s.cycles[k]).single m })) ∧
    (∀ n q, c.staged = some n → findIn s k n = some q → n ≠ r.number →
      (t.cranes[k]).active = some n ∧ (t.cranes[k]).mode = c.mode ∧ (t.cranes[k]).directive = c.directive ∧
      ∃ q', findIn t k n = some q' ∧ q'.kind = q.kind ∧ q'.legs = q.legs ∧ q'.state = .active ∧
        q'.activation = some s.clock ∧ q'.progress = some ⟨q.kind.first, false, false⟩ ∧
        q'.holdOverlap = (decide (s.berth.state ≠ .running) || c.held)) ∧
    (∀ d, c.staged = none → c.directive = some d →
      (t.cranes[k]).directive = none ∧ offers 5 ∧ (t.cranes[k]).held = c.held ∧
      (d.kind = .hold → c.held = true → (t.cranes[k]).mode = c.mode ∧ (t.cranes[k]).active = none) ∧
      (d.kind = .withdraw → (t.cranes[k]).mode = .withdrawn ∧ (t.cranes[k]).active = none ∧
        (∀ (n : LaneNo) (q : Request), (t.lanes[n]).request = some q → q.crane ≠ k) ∧
        ((∀ q ∈ s.queues[k], q.number ≠ r.number → q.state ≠ .active) →
          ∀ (n : LaneNo) (m : MoveNo), (t.lanes[n]).slot.move = some m → ∀ q ∈ t.queues[k], q.number ≠ m)))

/-! ### Bodies -/

/-- A box that TABLE 53 can carry: an identifier of eleven characters, and a mass of ten bits. -/
def BoxEncodes (b : Box) : Prop := b.identifier.length = 11 ∧ b.mass < 1024

/-- A leg that TABLE 53 can carry for a move of a kind: bays of eight bits, and a place to set into for a RESTOW alone. -/
structure LegEncodes (kind : MoveKind) (l : Leg) : Prop where
  bay : l.bay < 256
  restow : l.restow.isSome ↔ kind = .restow
  toBay : ∀ d b, l.restow = some d → d.toBay = some b → b < 256
  box1 : BoxEncodes l.box1
  box2 : ∀ b, l.box2 = some b → BoxEncodes b

/-- TABLES 53, 54, R156: the body of an ORDER_ADD, written from its items, is read back as those items, whatever its kind,
its legs and their boxes. -/
def Obligations.OrderAddBodyReadsBack : Prop :=
  ∀ o : AddOrder, (∀ l ∈ o.legs, LegEncodes o.kind l) → o.afterMove ≠ some 0 → o.beforeMove ≠ some 0 →
    readAdd (moveBytes o.number ++ [o.kind.code] ++ moveOptBytes o.afterMove ++ moveOptBytes o.beforeMove ++
      o.legs.flatMap Leg.bytes) = some o
end

