-- ==== Sys2Proof/Laws/State.lean ====
section
/-! SUPPORT. What each named update writes and what it leaves alone: one lemma for each field of the state, true by
unfolding, so that no later proof opens a record update. -/

namespace Sys2Proof.Machine

variable (s : State)


@[simp] theorem modCrane_pending (k : CraneNo) (f : Crane → Crane) : (modCrane k f s).pending = s.pending := rfl
@[simp] theorem modCrane_freeCount (k : CraneNo) (f : Crane → Crane) : (modCrane k f s).freeCount = s.freeCount := rfl
@[simp] theorem modCrane_resetAsserted (k : CraneNo) (f : Crane → Crane) : (modCrane k f s).resetAsserted = s.resetAsserted := rfl
@[simp] theorem modCrane_clock (k : CraneNo) (f : Crane → Crane) : (modCrane k f s).clock = s.clock := rfl
@[simp] theorem modCrane_params (k : CraneNo) (f : Crane → Crane) : (modCrane k f s).params = s.params := rfl
@[simp] theorem modCrane_queues (k : CraneNo) (f : Crane → Crane) : (modCrane k f s).queues = s.queues := rfl
@[simp] theorem modCrane_cranes (k : CraneNo) (f : Crane → Crane) : (modCrane k f s).cranes = s.cranes.set k (f s.cranes[k]) := rfl
@[simp] theorem modCrane_cycles (k : CraneNo) (f : Crane → Crane) : (modCrane k f s).cycles = s.cycles := rfl
@[simp] theorem modCrane_roster (k : CraneNo) (f : Crane → Crane) : (modCrane k f s).roster = s.roster := rfl
@[simp] theorem modCrane_lanes (k : CraneNo) (f : Crane → Crane) : (modCrane k f s).lanes = s.lanes := rfl
@[simp] theorem modCrane_gateMarks (k : CraneNo) (f : Crane → Crane) : (modCrane k f s).gateMarks = s.gateMarks := rfl
@[simp] theorem modCrane_bays (k : CraneNo) (f : Crane → Crane) : (modCrane k f s).bays = s.bays := rfl
@[simp] theorem modCrane_areas (k : CraneNo) (f : Crane → Crane) : (modCrane k f s).areas = s.areas := rfl
@[simp] theorem modCrane_jobs (k : CraneNo) (f : Crane → Crane) : (modCrane k f s).jobs = s.jobs := rfl
@[simp] theorem modCrane_gangs (k : CraneNo) (f : Crane → Crane) : (modCrane k f s).gangs = s.gangs := rfl
@[simp] theorem modCrane_berth (k : CraneNo) (f : Crane → Crane) : (modCrane k f s).berth = s.berth := rfl
@[simp] theorem modCrane_stations (k : CraneNo) (f : Crane → Crane) : (modCrane k f s).stations = s.stations := rfl
@[simp] theorem modCrane_field (k : CraneNo) (f : Crane → Crane) : (modCrane k f s).field = s.field := rfl
@[simp] theorem modCrane_reports (k : CraneNo) (f : Crane → Crane) : (modCrane k f s).reports = s.reports := rfl
@[simp] theorem modCrane_uplink (k : CraneNo) (f : Crane → Crane) : (modCrane k f s).uplink = s.uplink := rfl

@[simp] theorem setQueue_pending (k : CraneNo) (q : List MoveRecord) : (setQueue k q s).pending = s.pending := rfl
@[simp] theorem setQueue_freeCount (k : CraneNo) (q : List MoveRecord) : (setQueue k q s).freeCount = s.freeCount := rfl
@[simp] theorem setQueue_resetAsserted (k : CraneNo) (q : List MoveRecord) : (setQueue k q s).resetAsserted = s.resetAsserted := rfl
@[simp] theorem setQueue_clock (k : CraneNo) (q : List MoveRecord) : (setQueue k q s).clock = s.clock := rfl
@[simp] theorem setQueue_params (k : CraneNo) (q : List MoveRecord) : (setQueue k q s).params = s.params := rfl
@[simp] theorem setQueue_queues (k : CraneNo) (q : List MoveRecord) : (setQueue k q s).queues = s.queues.set k q := rfl
@[simp] theorem setQueue_cranes (k : CraneNo) (q : List MoveRecord) : (setQueue k q s).cranes = s.cranes := rfl
@[simp] theorem setQueue_cycles (k : CraneNo) (q : List MoveRecord) : (setQueue k q s).cycles = s.cycles := rfl
@[simp] theorem setQueue_roster (k : CraneNo) (q : List MoveRecord) : (setQueue k q s).roster = s.roster := rfl
@[simp] theorem setQueue_lanes (k : CraneNo) (q : List MoveRecord) : (setQueue k q s).lanes = s.lanes := rfl
@[simp] theorem setQueue_gateMarks (k : CraneNo) (q : List MoveRecord) : (setQueue k q s).gateMarks = s.gateMarks := rfl
@[simp] theorem setQueue_bays (k : CraneNo) (q : List MoveRecord) : (setQueue k q s).bays = s.bays := rfl
@[simp] theorem setQueue_areas (k : CraneNo) (q : List MoveRecord) : (setQueue k q s).areas = s.areas := rfl
@[simp] theorem setQueue_jobs (k : CraneNo) (q : List MoveRecord) : (setQueue k q s).jobs = s.jobs := rfl
@[simp] theorem setQueue_gangs (k : CraneNo) (q : List MoveRecord) : (setQueue k q s).gangs = s.gangs := rfl
@[simp] theorem setQueue_berth (k : CraneNo) (q : List MoveRecord) : (setQueue k q s).berth = s.berth := rfl
@[simp] theorem setQueue_stations (k : CraneNo) (q : List MoveRecord) : (setQueue k q s).stations = s.stations := rfl
@[simp] theorem setQueue_field (k : CraneNo) (q : List MoveRecord) : (setQueue k q s).field = s.field := rfl
@[simp] theorem setQueue_reports (k : CraneNo) (q : List MoveRecord) : (setQueue k q s).reports = s.reports := rfl
@[simp] theorem setQueue_uplink (k : CraneNo) (q : List MoveRecord) : (setQueue k q s).uplink = s.uplink := rfl

@[simp] theorem mapMoves_pending (f : MoveRecord → MoveRecord) : (mapMoves f s).pending = s.pending := rfl
@[simp] theorem mapMoves_freeCount (f : MoveRecord → MoveRecord) : (mapMoves f s).freeCount = s.freeCount := rfl
@[simp] theorem mapMoves_resetAsserted (f : MoveRecord → MoveRecord) : (mapMoves f s).resetAsserted = s.resetAsserted := rfl
@[simp] theorem mapMoves_clock (f : MoveRecord → MoveRecord) : (mapMoves f s).clock = s.clock := rfl
@[simp] theorem mapMoves_params (f : MoveRecord → MoveRecord) : (mapMoves f s).params = s.params := rfl
@[simp] theorem mapMoves_queues (f : MoveRecord → MoveRecord) : (mapMoves f s).queues = Vector.ofFn fun k => (s.queues[k]).map f := rfl
@[simp] theorem mapMoves_cranes (f : MoveRecord → MoveRecord) : (mapMoves f s).cranes = s.cranes := rfl
@[simp] theorem mapMoves_cycles (f : MoveRecord → MoveRecord) : (mapMoves f s).cycles = s.cycles := rfl
@[simp] theorem mapMoves_roster (f : MoveRecord → MoveRecord) : (mapMoves f s).roster = s.roster := rfl
@[simp] theorem mapMoves_lanes (f : MoveRecord → MoveRecord) : (mapMoves f s).lanes = s.lanes := rfl
@[simp] theorem mapMoves_gateMarks (f : MoveRecord → MoveRecord) : (mapMoves f s).gateMarks = s.gateMarks := rfl
@[simp] theorem mapMoves_bays (f : MoveRecord → MoveRecord) : (mapMoves f s).bays = s.bays := rfl
@[simp] theorem mapMoves_areas (f : MoveRecord → MoveRecord) : (mapMoves f s).areas = s.areas := rfl
@[simp] theorem mapMoves_jobs (f : MoveRecord → MoveRecord) : (mapMoves f s).jobs = s.jobs := rfl
@[simp] theorem mapMoves_gangs (f : MoveRecord → MoveRecord) : (mapMoves f s).gangs = s.gangs := rfl
@[simp] theorem mapMoves_berth (f : MoveRecord → MoveRecord) : (mapMoves f s).berth = s.berth := rfl
@[simp] theorem mapMoves_stations (f : MoveRecord → MoveRecord) : (mapMoves f s).stations = s.stations := rfl
@[simp] theorem mapMoves_field (f : MoveRecord → MoveRecord) : (mapMoves f s).field = s.field := rfl
@[simp] theorem mapMoves_reports (f : MoveRecord → MoveRecord) : (mapMoves f s).reports = s.reports := rfl
@[simp] theorem mapMoves_uplink (f : MoveRecord → MoveRecord) : (mapMoves f s).uplink = s.uplink := rfl

@[simp] theorem modMove_pending (n : MoveNo) (f : MoveRecord → MoveRecord) : (modMove n f s).pending = s.pending := rfl
@[simp] theorem modMove_freeCount (n : MoveNo) (f : MoveRecord → MoveRecord) : (modMove n f s).freeCount = s.freeCount := rfl
@[simp] theorem modMove_resetAsserted (n : MoveNo) (f : MoveRecord → MoveRecord) : (modMove n f s).resetAsserted = s.resetAsserted := rfl
@[simp] theorem modMove_clock (n : MoveNo) (f : MoveRecord → MoveRecord) : (modMove n f s).clock = s.clock := rfl
@[simp] theorem modMove_params (n : MoveNo) (f : MoveRecord → MoveRecord) : (modMove n f s).params = s.params := rfl
@[simp] theorem modMove_queues (n : MoveNo) (f : MoveRecord → MoveRecord) : (modMove n f s).queues = Vector.ofFn fun k => (s.queues[k]).map fun r => if r.number = n then f r else r := rfl
@[simp] theorem modMove_cranes (n : MoveNo) (f : MoveRecord → MoveRecord) : (modMove n f s).cranes = s.cranes := rfl
@[simp] theorem modMove_cycles (n : MoveNo) (f : MoveRecord → MoveRecord) : (modMove n f s).cycles = s.cycles := rfl
@[simp] theorem modMove_roster (n : MoveNo) (f : MoveRecord → MoveRecord) : (modMove n f s).roster = s.roster := rfl
@[simp] theorem modMove_lanes (n : MoveNo) (f : MoveRecord → MoveRecord) : (modMove n f s).lanes = s.lanes := rfl
@[simp] theorem modMove_gateMarks (n : MoveNo) (f : MoveRecord → MoveRecord) : (modMove n f s).gateMarks = s.gateMarks := rfl
@[simp] theorem modMove_bays (n : MoveNo) (f : MoveRecord → MoveRecord) : (modMove n f s).bays = s.bays := rfl
@[simp] theorem modMove_areas (n : MoveNo) (f : MoveRecord → MoveRecord) : (modMove n f s).areas = s.areas := rfl
@[simp] theorem modMove_jobs (n : MoveNo) (f : MoveRecord → MoveRecord) : (modMove n f s).jobs = s.jobs := rfl
@[simp] theorem modMove_gangs (n : MoveNo) (f : MoveRecord → MoveRecord) : (modMove n f s).gangs = s.gangs := rfl
@[simp] theorem modMove_berth (n : MoveNo) (f : MoveRecord → MoveRecord) : (modMove n f s).berth = s.berth := rfl
@[simp] theorem modMove_stations (n : MoveNo) (f : MoveRecord → MoveRecord) : (modMove n f s).stations = s.stations := rfl
@[simp] theorem modMove_field (n : MoveNo) (f : MoveRecord → MoveRecord) : (modMove n f s).field = s.field := rfl
@[simp] theorem modMove_reports (n : MoveNo) (f : MoveRecord → MoveRecord) : (modMove n f s).reports = s.reports := rfl
@[simp] theorem modMove_uplink (n : MoveNo) (f : MoveRecord → MoveRecord) : (modMove n f s).uplink = s.uplink := rfl

@[simp] theorem setCycle_pending (k : CraneNo) (c : Cycle) : (setCycle k c s).pending = s.pending := rfl
@[simp] theorem setCycle_freeCount (k : CraneNo) (c : Cycle) : (setCycle k c s).freeCount = s.freeCount := rfl
@[simp] theorem setCycle_resetAsserted (k : CraneNo) (c : Cycle) : (setCycle k c s).resetAsserted = s.resetAsserted := rfl
@[simp] theorem setCycle_clock (k : CraneNo) (c : Cycle) : (setCycle k c s).clock = s.clock := rfl
@[simp] theorem setCycle_params (k : CraneNo) (c : Cycle) : (setCycle k c s).params = s.params := rfl
@[simp] theorem setCycle_queues (k : CraneNo) (c : Cycle) : (setCycle k c s).queues = s.queues := rfl
@[simp] theorem setCycle_cranes (k : CraneNo) (c : Cycle) : (setCycle k c s).cranes = s.cranes := rfl
@[simp] theorem setCycle_cycles (k : CraneNo) (c : Cycle) : (setCycle k c s).cycles = s.cycles.set k c := rfl
@[simp] theorem setCycle_roster (k : CraneNo) (c : Cycle) : (setCycle k c s).roster = s.roster := rfl
@[simp] theorem setCycle_lanes (k : CraneNo) (c : Cycle) : (setCycle k c s).lanes = s.lanes := rfl
@[simp] theorem setCycle_gateMarks (k : CraneNo) (c : Cycle) : (setCycle k c s).gateMarks = s.gateMarks := rfl
@[simp] theorem setCycle_bays (k : CraneNo) (c : Cycle) : (setCycle k c s).bays = s.bays := rfl
@[simp] theorem setCycle_areas (k : CraneNo) (c : Cycle) : (setCycle k c s).areas = s.areas := rfl
@[simp] theorem setCycle_jobs (k : CraneNo) (c : Cycle) : (setCycle k c s).jobs = s.jobs := rfl
@[simp] theorem setCycle_gangs (k : CraneNo) (c : Cycle) : (setCycle k c s).gangs = s.gangs := rfl
@[simp] theorem setCycle_berth (k : CraneNo) (c : Cycle) : (setCycle k c s).berth = s.berth := rfl
@[simp] theorem setCycle_stations (k : CraneNo) (c : Cycle) : (setCycle k c s).stations = s.stations := rfl
@[simp] theorem setCycle_field (k : CraneNo) (c : Cycle) : (setCycle k c s).field = s.field := rfl
@[simp] theorem setCycle_reports (k : CraneNo) (c : Cycle) : (setCycle k c s).reports = s.reports := rfl
@[simp] theorem setCycle_uplink (k : CraneNo) (c : Cycle) : (setCycle k c s).uplink = s.uplink := rfl

@[simp] theorem setRoster_pending (k : CraneNo) (e : Option RosterEntry) : (setRoster k e s).pending = s.pending := rfl
@[simp] theorem setRoster_freeCount (k : CraneNo) (e : Option RosterEntry) : (setRoster k e s).freeCount = s.freeCount := rfl
@[simp] theorem setRoster_resetAsserted (k : CraneNo) (e : Option RosterEntry) : (setRoster k e s).resetAsserted = s.resetAsserted := rfl
@[simp] theorem setRoster_clock (k : CraneNo) (e : Option RosterEntry) : (setRoster k e s).clock = s.clock := rfl
@[simp] theorem setRoster_params (k : CraneNo) (e : Option RosterEntry) : (setRoster k e s).params = s.params := rfl
@[simp] theorem setRoster_queues (k : CraneNo) (e : Option RosterEntry) : (setRoster k e s).queues = s.queues := rfl
@[simp] theorem setRoster_cranes (k : CraneNo) (e : Option RosterEntry) : (setRoster k e s).cranes = s.cranes := rfl
@[simp] theorem setRoster_cycles (k : CraneNo) (e : Option RosterEntry) : (setRoster k e s).cycles = s.cycles := rfl
@[simp] theorem setRoster_roster (k : CraneNo) (e : Option RosterEntry) : (setRoster k e s).roster = s.roster.set k e := rfl
@[simp] theorem setRoster_lanes (k : CraneNo) (e : Option RosterEntry) : (setRoster k e s).lanes = s.lanes := rfl
@[simp] theorem setRoster_gateMarks (k : CraneNo) (e : Option RosterEntry) : (setRoster k e s).gateMarks = s.gateMarks := rfl
@[simp] theorem setRoster_bays (k : CraneNo) (e : Option RosterEntry) : (setRoster k e s).bays = s.bays := rfl
@[simp] theorem setRoster_areas (k : CraneNo) (e : Option RosterEntry) : (setRoster k e s).areas = s.areas := rfl
@[simp] theorem setRoster_jobs (k : CraneNo) (e : Option RosterEntry) : (setRoster k e s).jobs = s.jobs := rfl
@[simp] theorem setRoster_gangs (k : CraneNo) (e : Option RosterEntry) : (setRoster k e s).gangs = s.gangs := rfl
@[simp] theorem setRoster_berth (k : CraneNo) (e : Option RosterEntry) : (setRoster k e s).berth = s.berth := rfl
@[simp] theorem setRoster_stations (k : CraneNo) (e : Option RosterEntry) : (setRoster k e s).stations = s.stations := rfl
@[simp] theorem setRoster_field (k : CraneNo) (e : Option RosterEntry) : (setRoster k e s).field = s.field := rfl
@[simp] theorem setRoster_reports (k : CraneNo) (e : Option RosterEntry) : (setRoster k e s).reports = s.reports := rfl
@[simp] theorem setRoster_uplink (k : CraneNo) (e : Option RosterEntry) : (setRoster k e s).uplink = s.uplink := rfl

@[simp] theorem modLane_pending (l : LaneNo) (f : Lane → Lane) : (modLane l f s).pending = s.pending := rfl
@[simp] theorem modLane_freeCount (l : LaneNo) (f : Lane → Lane) : (modLane l f s).freeCount = s.freeCount := rfl
@[simp] theorem modLane_resetAsserted (l : LaneNo) (f : Lane → Lane) : (modLane l f s).resetAsserted = s.resetAsserted := rfl
@[simp] theorem modLane_clock (l : LaneNo) (f : Lane → Lane) : (modLane l f s).clock = s.clock := rfl
@[simp] theorem modLane_params (l : LaneNo) (f : Lane → Lane) : (modLane l f s).params = s.params := rfl
@[simp] theorem modLane_queues (l : LaneNo) (f : Lane → Lane) : (modLane l f s).queues = s.queues := rfl
@[simp] theorem modLane_cranes (l : LaneNo) (f : Lane → Lane) : (modLane l f s).cranes = s.cranes := rfl
@[simp] theorem modLane_cycles (l : LaneNo) (f : Lane → Lane) : (modLane l f s).cycles = s.cycles := rfl
@[simp] theorem modLane_roster (l : LaneNo) (f : Lane → Lane) : (modLane l f s).roster = s.roster := rfl
@[simp] theorem modLane_lanes (l : LaneNo) (f : Lane → Lane) : (modLane l f s).lanes = s.lanes.set l (f s.lanes[l]) := rfl
@[simp] theorem modLane_gateMarks (l : LaneNo) (f : Lane → Lane) : (modLane l f s).gateMarks = s.gateMarks := rfl
@[simp] theorem modLane_bays (l : LaneNo) (f : Lane → Lane) : (modLane l f s).bays = s.bays := rfl
@[simp] theorem modLane_areas (l : LaneNo) (f : Lane → Lane) : (modLane l f s).areas = s.areas := rfl
@[simp] theorem modLane_jobs (l : LaneNo) (f : Lane → Lane) : (modLane l f s).jobs = s.jobs := rfl
@[simp] theorem modLane_gangs (l : LaneNo) (f : Lane → Lane) : (modLane l f s).gangs = s.gangs := rfl
@[simp] theorem modLane_berth (l : LaneNo) (f : Lane → Lane) : (modLane l f s).berth = s.berth := rfl
@[simp] theorem modLane_stations (l : LaneNo) (f : Lane → Lane) : (modLane l f s).stations = s.stations := rfl
@[simp] theorem modLane_field (l : LaneNo) (f : Lane → Lane) : (modLane l f s).field = s.field := rfl
@[simp] theorem modLane_reports (l : LaneNo) (f : Lane → Lane) : (modLane l f s).reports = s.reports := rfl
@[simp] theorem modLane_uplink (l : LaneNo) (f : Lane → Lane) : (modLane l f s).uplink = s.uplink := rfl

@[simp] theorem mapLanes_pending (f : Lane → Lane) : (mapLanes f s).pending = s.pending := rfl
@[simp] theorem mapLanes_freeCount (f : Lane → Lane) : (mapLanes f s).freeCount = s.freeCount := rfl
@[simp] theorem mapLanes_resetAsserted (f : Lane → Lane) : (mapLanes f s).resetAsserted = s.resetAsserted := rfl
@[simp] theorem mapLanes_clock (f : Lane → Lane) : (mapLanes f s).clock = s.clock := rfl
@[simp] theorem mapLanes_params (f : Lane → Lane) : (mapLanes f s).params = s.params := rfl
@[simp] theorem mapLanes_queues (f : Lane → Lane) : (mapLanes f s).queues = s.queues := rfl
@[simp] theorem mapLanes_cranes (f : Lane → Lane) : (mapLanes f s).cranes = s.cranes := rfl
@[simp] theorem mapLanes_cycles (f : Lane → Lane) : (mapLanes f s).cycles = s.cycles := rfl
@[simp] theorem mapLanes_roster (f : Lane → Lane) : (mapLanes f s).roster = s.roster := rfl
@[simp] theorem mapLanes_lanes (f : Lane → Lane) : (mapLanes f s).lanes = Vector.ofFn fun l => f s.lanes[l] := rfl
@[simp] theorem mapLanes_gateMarks (f : Lane → Lane) : (mapLanes f s).gateMarks = s.gateMarks := rfl
@[simp] theorem mapLanes_bays (f : Lane → Lane) : (mapLanes f s).bays = s.bays := rfl
@[simp] theorem mapLanes_areas (f : Lane → Lane) : (mapLanes f s).areas = s.areas := rfl
@[simp] theorem mapLanes_jobs (f : Lane → Lane) : (mapLanes f s).jobs = s.jobs := rfl
@[simp] theorem mapLanes_gangs (f : Lane → Lane) : (mapLanes f s).gangs = s.gangs := rfl
@[simp] theorem mapLanes_berth (f : Lane → Lane) : (mapLanes f s).berth = s.berth := rfl
@[simp] theorem mapLanes_stations (f : Lane → Lane) : (mapLanes f s).stations = s.stations := rfl
@[simp] theorem mapLanes_field (f : Lane → Lane) : (mapLanes f s).field = s.field := rfl
@[simp] theorem mapLanes_reports (f : Lane → Lane) : (mapLanes f s).reports = s.reports := rfl
@[simp] theorem mapLanes_uplink (f : Lane → Lane) : (mapLanes f s).uplink = s.uplink := rfl

@[simp] theorem setGateMark_pending (u : GateNo) (b : Bool) : (setGateMark u b s).pending = s.pending := rfl
@[simp] theorem setGateMark_freeCount (u : GateNo) (b : Bool) : (setGateMark u b s).freeCount = s.freeCount := rfl
@[simp] theorem setGateMark_resetAsserted (u : GateNo) (b : Bool) : (setGateMark u b s).resetAsserted = s.resetAsserted := rfl
@[simp] theorem setGateMark_clock (u : GateNo) (b : Bool) : (setGateMark u b s).clock = s.clock := rfl
@[simp] theorem setGateMark_params (u : GateNo) (b : Bool) : (setGateMark u b s).params = s.params := rfl
@[simp] theorem setGateMark_queues (u : GateNo) (b : Bool) : (setGateMark u b s).queues = s.queues := rfl
@[simp] theorem setGateMark_cranes (u : GateNo) (b : Bool) : (setGateMark u b s).cranes = s.cranes := rfl
@[simp] theorem setGateMark_cycles (u : GateNo) (b : Bool) : (setGateMark u b s).cycles = s.cycles := rfl
@[simp] theorem setGateMark_roster (u : GateNo) (b : Bool) : (setGateMark u b s).roster = s.roster := rfl
@[simp] theorem setGateMark_lanes (u : GateNo) (b : Bool) : (setGateMark u b s).lanes = s.lanes := rfl
@[simp] theorem setGateMark_gateMarks (u : GateNo) (b : Bool) : (setGateMark u b s).gateMarks = s.gateMarks.set u b := rfl
@[simp] theorem setGateMark_bays (u : GateNo) (b : Bool) : (setGateMark u b s).bays = s.bays := rfl
@[simp] theorem setGateMark_areas (u : GateNo) (b : Bool) : (setGateMark u b s).areas = s.areas := rfl
@[simp] theorem setGateMark_jobs (u : GateNo) (b : Bool) : (setGateMark u b s).jobs = s.jobs := rfl
@[simp] theorem setGateMark_gangs (u : GateNo) (b : Bool) : (setGateMark u b s).gangs = s.gangs := rfl
@[simp] theorem setGateMark_berth (u : GateNo) (b : Bool) : (setGateMark u b s).berth = s.berth := rfl
@[simp] theorem setGateMark_stations (u : GateNo) (b : Bool) : (setGateMark u b s).stations = s.stations := rfl
@[simp] theorem setGateMark_field (u : GateNo) (b : Bool) : (setGateMark u b s).field = s.field := rfl
@[simp] theorem setGateMark_reports (u : GateNo) (b : Bool) : (setGateMark u b s).reports = s.reports := rfl
@[simp] theorem setGateMark_uplink (u : GateNo) (b : Bool) : (setGateMark u b s).uplink = s.uplink := rfl

@[simp] theorem setBay_pending (i : Fin 64) (r : Option BayRow) : (setBay i r s).pending = s.pending := rfl
@[simp] theorem setBay_freeCount (i : Fin 64) (r : Option BayRow) : (setBay i r s).freeCount = s.freeCount := rfl
@[simp] theorem setBay_resetAsserted (i : Fin 64) (r : Option BayRow) : (setBay i r s).resetAsserted = s.resetAsserted := rfl
@[simp] theorem setBay_clock (i : Fin 64) (r : Option BayRow) : (setBay i r s).clock = s.clock := rfl
@[simp] theorem setBay_params (i : Fin 64) (r : Option BayRow) : (setBay i r s).params = s.params := rfl
@[simp] theorem setBay_queues (i : Fin 64) (r : Option BayRow) : (setBay i r s).queues = s.queues := rfl
@[simp] theorem setBay_cranes (i : Fin 64) (r : Option BayRow) : (setBay i r s).cranes = s.cranes := rfl
@[simp] theorem setBay_cycles (i : Fin 64) (r : Option BayRow) : (setBay i r s).cycles = s.cycles := rfl
@[simp] theorem setBay_roster (i : Fin 64) (r : Option BayRow) : (setBay i r s).roster = s.roster := rfl
@[simp] theorem setBay_lanes (i : Fin 64) (r : Option BayRow) : (setBay i r s).lanes = s.lanes := rfl
@[simp] theorem setBay_gateMarks (i : Fin 64) (r : Option BayRow) : (setBay i r s).gateMarks = s.gateMarks := rfl
@[simp] theorem setBay_bays (i : Fin 64) (r : Option BayRow) : (setBay i r s).bays = s.bays.set i r := rfl
@[simp] theorem setBay_areas (i : Fin 64) (r : Option BayRow) : (setBay i r s).areas = s.areas := rfl
@[simp] theorem setBay_jobs (i : Fin 64) (r : Option BayRow) : (setBay i r s).jobs = s.jobs := rfl
@[simp] theorem setBay_gangs (i : Fin 64) (r : Option BayRow) : (setBay i r s).gangs = s.gangs := rfl
@[simp] theorem setBay_berth (i : Fin 64) (r : Option BayRow) : (setBay i r s).berth = s.berth := rfl
@[simp] theorem setBay_stations (i : Fin 64) (r : Option BayRow) : (setBay i r s).stations = s.stations := rfl
@[simp] theorem setBay_field (i : Fin 64) (r : Option BayRow) : (setBay i r s).field = s.field := rfl
@[simp] theorem setBay_reports (i : Fin 64) (r : Option BayRow) : (setBay i r s).reports = s.reports := rfl
@[simp] theorem setBay_uplink (i : Fin 64) (r : Option BayRow) : (setBay i r s).uplink = s.uplink := rfl

@[simp] theorem modArea_pending (a : AreaNo) (f : Area → Area) : (modArea a f s).pending = s.pending := rfl
@[simp] theorem modArea_freeCount (a : AreaNo) (f : Area → Area) : (modArea a f s).freeCount = s.freeCount := rfl
@[simp] theorem modArea_resetAsserted (a : AreaNo) (f : Area → Area) : (modArea a f s).resetAsserted = s.resetAsserted := rfl
@[simp] theorem modArea_clock (a : AreaNo) (f : Area → Area) : (modArea a f s).clock = s.clock := rfl
@[simp] theorem modArea_params (a : AreaNo) (f : Area → Area) : (modArea a f s).params = s.params := rfl
@[simp] theorem modArea_queues (a : AreaNo) (f : Area → Area) : (modArea a f s).queues = s.queues := rfl
@[simp] theorem modArea_cranes (a : AreaNo) (f : Area → Area) : (modArea a f s).cranes = s.cranes := rfl
@[simp] theorem modArea_cycles (a : AreaNo) (f : Area → Area) : (modArea a f s).cycles = s.cycles := rfl
@[simp] theorem modArea_roster (a : AreaNo) (f : Area → Area) : (modArea a f s).roster = s.roster := rfl
@[simp] theorem modArea_lanes (a : AreaNo) (f : Area → Area) : (modArea a f s).lanes = s.lanes := rfl
@[simp] theorem modArea_gateMarks (a : AreaNo) (f : Area → Area) : (modArea a f s).gateMarks = s.gateMarks := rfl
@[simp] theorem modArea_bays (a : AreaNo) (f : Area → Area) : (modArea a f s).bays = s.bays := rfl
@[simp] theorem modArea_areas (a : AreaNo) (f : Area → Area) : (modArea a f s).areas = s.areas.set a (f s.areas[a]) := rfl
@[simp] theorem modArea_jobs (a : AreaNo) (f : Area → Area) : (modArea a f s).jobs = s.jobs := rfl
@[simp] theorem modArea_gangs (a : AreaNo) (f : Area → Area) : (modArea a f s).gangs = s.gangs := rfl
@[simp] theorem modArea_berth (a : AreaNo) (f : Area → Area) : (modArea a f s).berth = s.berth := rfl
@[simp] theorem modArea_stations (a : AreaNo) (f : Area → Area) : (modArea a f s).stations = s.stations := rfl
@[simp] theorem modArea_field (a : AreaNo) (f : Area → Area) : (modArea a f s).field = s.field := rfl
@[simp] theorem modArea_reports (a : AreaNo) (f : Area → Area) : (modArea a f s).reports = s.reports := rfl
@[simp] theorem modArea_uplink (a : AreaNo) (f : Area → Area) : (modArea a f s).uplink = s.uplink := rfl

@[simp] theorem setJobs_pending (js : List Job) : (setJobs js s).pending = s.pending := rfl
@[simp] theorem setJobs_freeCount (js : List Job) : (setJobs js s).freeCount = s.freeCount := rfl
@[simp] theorem setJobs_resetAsserted (js : List Job) : (setJobs js s).resetAsserted = s.resetAsserted := rfl
@[simp] theorem setJobs_clock (js : List Job) : (setJobs js s).clock = s.clock := rfl
@[simp] theorem setJobs_params (js : List Job) : (setJobs js s).params = s.params := rfl
@[simp] theorem setJobs_queues (js : List Job) : (setJobs js s).queues = s.queues := rfl
@[simp] theorem setJobs_cranes (js : List Job) : (setJobs js s).cranes = s.cranes := rfl
@[simp] theorem setJobs_cycles (js : List Job) : (setJobs js s).cycles = s.cycles := rfl
@[simp] theorem setJobs_roster (js : List Job) : (setJobs js s).roster = s.roster := rfl
@[simp] theorem setJobs_lanes (js : List Job) : (setJobs js s).lanes = s.lanes := rfl
@[simp] theorem setJobs_gateMarks (js : List Job) : (setJobs js s).gateMarks = s.gateMarks := rfl
@[simp] theorem setJobs_bays (js : List Job) : (setJobs js s).bays = s.bays := rfl
@[simp] theorem setJobs_areas (js : List Job) : (setJobs js s).areas = s.areas := rfl
@[simp] theorem setJobs_jobs (js : List Job) : (setJobs js s).jobs = js := rfl
@[simp] theorem setJobs_gangs (js : List Job) : (setJobs js s).gangs = s.gangs := rfl
@[simp] theorem setJobs_berth (js : List Job) : (setJobs js s).berth = s.berth := rfl
@[simp] theorem setJobs_stations (js : List Job) : (setJobs js s).stations = s.stations := rfl
@[simp] theorem setJobs_field (js : List Job) : (setJobs js s).field = s.field := rfl
@[simp] theorem setJobs_reports (js : List Job) : (setJobs js s).reports = s.reports := rfl
@[simp] theorem setJobs_uplink (js : List Job) : (setJobs js s).uplink = s.uplink := rfl

@[simp] theorem modGang_pending (g : GangNo) (f : Gang → Gang) : (modGang g f s).pending = s.pending := rfl
@[simp] theorem modGang_freeCount (g : GangNo) (f : Gang → Gang) : (modGang g f s).freeCount = s.freeCount := rfl
@[simp] theorem modGang_resetAsserted (g : GangNo) (f : Gang → Gang) : (modGang g f s).resetAsserted = s.resetAsserted := rfl
@[simp] theorem modGang_clock (g : GangNo) (f : Gang → Gang) : (modGang g f s).clock = s.clock := rfl
@[simp] theorem modGang_params (g : GangNo) (f : Gang → Gang) : (modGang g f s).params = s.params := rfl
@[simp] theorem modGang_queues (g : GangNo) (f : Gang → Gang) : (modGang g f s).queues = s.queues := rfl
@[simp] theorem modGang_cranes (g : GangNo) (f : Gang → Gang) : (modGang g f s).cranes = s.cranes := rfl
@[simp] theorem modGang_cycles (g : GangNo) (f : Gang → Gang) : (modGang g f s).cycles = s.cycles := rfl
@[simp] theorem modGang_roster (g : GangNo) (f : Gang → Gang) : (modGang g f s).roster = s.roster := rfl
@[simp] theorem modGang_lanes (g : GangNo) (f : Gang → Gang) : (modGang g f s).lanes = s.lanes := rfl
@[simp] theorem modGang_gateMarks (g : GangNo) (f : Gang → Gang) : (modGang g f s).gateMarks = s.gateMarks := rfl
@[simp] theorem modGang_bays (g : GangNo) (f : Gang → Gang) : (modGang g f s).bays = s.bays := rfl
@[simp] theorem modGang_areas (g : GangNo) (f : Gang → Gang) : (modGang g f s).areas = s.areas := rfl
@[simp] theorem modGang_jobs (g : GangNo) (f : Gang → Gang) : (modGang g f s).jobs = s.jobs := rfl
@[simp] theorem modGang_gangs (g : GangNo) (f : Gang → Gang) : (modGang g f s).gangs = s.gangs.set g (f s.gangs[g]) := rfl
@[simp] theorem modGang_berth (g : GangNo) (f : Gang → Gang) : (modGang g f s).berth = s.berth := rfl
@[simp] theorem modGang_stations (g : GangNo) (f : Gang → Gang) : (modGang g f s).stations = s.stations := rfl
@[simp] theorem modGang_field (g : GangNo) (f : Gang → Gang) : (modGang g f s).field = s.field := rfl
@[simp] theorem modGang_reports (g : GangNo) (f : Gang → Gang) : (modGang g f s).reports = s.reports := rfl
@[simp] theorem modGang_uplink (g : GangNo) (f : Gang → Gang) : (modGang g f s).uplink = s.uplink := rfl

@[simp] theorem modBerth_pending (f : Berth → Berth) : (modBerth f s).pending = s.pending := rfl
@[simp] theorem modBerth_freeCount (f : Berth → Berth) : (modBerth f s).freeCount = s.freeCount := rfl
@[simp] theorem modBerth_resetAsserted (f : Berth → Berth) : (modBerth f s).resetAsserted = s.resetAsserted := rfl
@[simp] theorem modBerth_clock (f : Berth → Berth) : (modBerth f s).clock = s.clock := rfl
@[simp] theorem modBerth_params (f : Berth → Berth) : (modBerth f s).params = s.params := rfl
@[simp] theorem modBerth_queues (f : Berth → Berth) : (modBerth f s).queues = s.queues := rfl
@[simp] theorem modBerth_cranes (f : Berth → Berth) : (modBerth f s).cranes = s.cranes := rfl
@[simp] theorem modBerth_cycles (f : Berth → Berth) : (modBerth f s).cycles = s.cycles := rfl
@[simp] theorem modBerth_roster (f : Berth → Berth) : (modBerth f s).roster = s.roster := rfl
@[simp] theorem modBerth_lanes (f : Berth → Berth) : (modBerth f s).lanes = s.lanes := rfl
@[simp] theorem modBerth_gateMarks (f : Berth → Berth) : (modBerth f s).gateMarks = s.gateMarks := rfl
@[simp] theorem modBerth_bays (f : Berth → Berth) : (modBerth f s).bays = s.bays := rfl
@[simp] theorem modBerth_areas (f : Berth → Berth) : (modBerth f s).areas = s.areas := rfl
@[simp] theorem modBerth_jobs (f : Berth → Berth) : (modBerth f s).jobs = s.jobs := rfl
@[simp] theorem modBerth_gangs (f : Berth → Berth) : (modBerth f s).gangs = s.gangs := rfl
@[simp] theorem modBerth_berth (f : Berth → Berth) : (modBerth f s).berth = f s.berth := rfl
@[simp] theorem modBerth_stations (f : Berth → Berth) : (modBerth f s).stations = s.stations := rfl
@[simp] theorem modBerth_field (f : Berth → Berth) : (modBerth f s).field = s.field := rfl
@[simp] theorem modBerth_reports (f : Berth → Berth) : (modBerth f s).reports = s.reports := rfl
@[simp] theorem modBerth_uplink (f : Berth → Berth) : (modBerth f s).uplink = s.uplink := rfl

@[simp] theorem modStation_pending (st : Station) (f : StationRecord → StationRecord) : (modStation st f s).pending = s.pending := rfl
@[simp] theorem modStation_freeCount (st : Station) (f : StationRecord → StationRecord) : (modStation st f s).freeCount = s.freeCount := rfl
@[simp] theorem modStation_resetAsserted (st : Station) (f : StationRecord → StationRecord) : (modStation st f s).resetAsserted = s.resetAsserted := rfl
@[simp] theorem modStation_clock (st : Station) (f : StationRecord → StationRecord) : (modStation st f s).clock = s.clock := rfl
@[simp] theorem modStation_params (st : Station) (f : StationRecord → StationRecord) : (modStation st f s).params = s.params := rfl
@[simp] theorem modStation_queues (st : Station) (f : StationRecord → StationRecord) : (modStation st f s).queues = s.queues := rfl
@[simp] theorem modStation_cranes (st : Station) (f : StationRecord → StationRecord) : (modStation st f s).cranes = s.cranes := rfl
@[simp] theorem modStation_cycles (st : Station) (f : StationRecord → StationRecord) : (modStation st f s).cycles = s.cycles := rfl
@[simp] theorem modStation_roster (st : Station) (f : StationRecord → StationRecord) : (modStation st f s).roster = s.roster := rfl
@[simp] theorem modStation_lanes (st : Station) (f : StationRecord → StationRecord) : (modStation st f s).lanes = s.lanes := rfl
@[simp] theorem modStation_gateMarks (st : Station) (f : StationRecord → StationRecord) : (modStation st f s).gateMarks = s.gateMarks := rfl
@[simp] theorem modStation_bays (st : Station) (f : StationRecord → StationRecord) : (modStation st f s).bays = s.bays := rfl
@[simp] theorem modStation_areas (st : Station) (f : StationRecord → StationRecord) : (modStation st f s).areas = s.areas := rfl
@[simp] theorem modStation_jobs (st : Station) (f : StationRecord → StationRecord) : (modStation st f s).jobs = s.jobs := rfl
@[simp] theorem modStation_gangs (st : Station) (f : StationRecord → StationRecord) : (modStation st f s).gangs = s.gangs := rfl
@[simp] theorem modStation_berth (st : Station) (f : StationRecord → StationRecord) : (modStation st f s).berth = s.berth := rfl
@[simp] theorem modStation_stations (st : Station) (f : StationRecord → StationRecord) : (modStation st f s).stations = s.stations.set st.index (f s.stations[st.index]) := rfl
@[simp] theorem modStation_field (st : Station) (f : StationRecord → StationRecord) : (modStation st f s).field = s.field := rfl
@[simp] theorem modStation_reports (st : Station) (f : StationRecord → StationRecord) : (modStation st f s).reports = s.reports := rfl
@[simp] theorem modStation_uplink (st : Station) (f : StationRecord → StationRecord) : (modStation st f s).uplink = s.uplink := rfl

@[simp] theorem modField_pending (f : Field → Field) : (modField f s).pending = s.pending := rfl
@[simp] theorem modField_freeCount (f : Field → Field) : (modField f s).freeCount = s.freeCount := rfl
@[simp] theorem modField_resetAsserted (f : Field → Field) : (modField f s).resetAsserted = s.resetAsserted := rfl
@[simp] theorem modField_clock (f : Field → Field) : (modField f s).clock = s.clock := rfl
@[simp] theorem modField_params (f : Field → Field) : (modField f s).params = s.params := rfl
@[simp] theorem modField_queues (f : Field → Field) : (modField f s).queues = s.queues := rfl
@[simp] theorem modField_cranes (f : Field → Field) : (modField f s).cranes = s.cranes := rfl
@[simp] theorem modField_cycles (f : Field → Field) : (modField f s).cycles = s.cycles := rfl
@[simp] theorem modField_roster (f : Field → Field) : (modField f s).roster = s.roster := rfl
@[simp] theorem modField_lanes (f : Field → Field) : (modField f s).lanes = s.lanes := rfl
@[simp] theorem modField_gateMarks (f : Field → Field) : (modField f s).gateMarks = s.gateMarks := rfl
@[simp] theorem modField_bays (f : Field → Field) : (modField f s).bays = s.bays := rfl
@[simp] theorem modField_areas (f : Field → Field) : (modField f s).areas = s.areas := rfl
@[simp] theorem modField_jobs (f : Field → Field) : (modField f s).jobs = s.jobs := rfl
@[simp] theorem modField_gangs (f : Field → Field) : (modField f s).gangs = s.gangs := rfl
@[simp] theorem modField_berth (f : Field → Field) : (modField f s).berth = s.berth := rfl
@[simp] theorem modField_stations (f : Field → Field) : (modField f s).stations = s.stations := rfl
@[simp] theorem modField_field (f : Field → Field) : (modField f s).field = f s.field := rfl
@[simp] theorem modField_reports (f : Field → Field) : (modField f s).reports = s.reports := rfl
@[simp] theorem modField_uplink (f : Field → Field) : (modField f s).uplink = s.uplink := rfl

@[simp] theorem modReports_pending (f : Reports → Reports) : (modReports f s).pending = s.pending := rfl
@[simp] theorem modReports_freeCount (f : Reports → Reports) : (modReports f s).freeCount = s.freeCount := rfl
@[simp] theorem modReports_resetAsserted (f : Reports → Reports) : (modReports f s).resetAsserted = s.resetAsserted := rfl
@[simp] theorem modReports_clock (f : Reports → Reports) : (modReports f s).clock = s.clock := rfl
@[simp] theorem modReports_params (f : Reports → Reports) : (modReports f s).params = s.params := rfl
@[simp] theorem modReports_queues (f : Reports → Reports) : (modReports f s).queues = s.queues := rfl
@[simp] theorem modReports_cranes (f : Reports → Reports) : (modReports f s).cranes = s.cranes := rfl
@[simp] theorem modReports_cycles (f : Reports → Reports) : (modReports f s).cycles = s.cycles := rfl
@[simp] theorem modReports_roster (f : Reports → Reports) : (modReports f s).roster = s.roster := rfl
@[simp] theorem modReports_lanes (f : Reports → Reports) : (modReports f s).lanes = s.lanes := rfl
@[simp] theorem modReports_gateMarks (f : Reports → Reports) : (modReports f s).gateMarks = s.gateMarks := rfl
@[simp] theorem modReports_bays (f : Reports → Reports) : (modReports f s).bays = s.bays := rfl
@[simp] theorem modReports_areas (f : Reports → Reports) : (modReports f s).areas = s.areas := rfl
@[simp] theorem modReports_jobs (f : Reports → Reports) : (modReports f s).jobs = s.jobs := rfl
@[simp] theorem modReports_gangs (f : Reports → Reports) : (modReports f s).gangs = s.gangs := rfl
@[simp] theorem modReports_berth (f : Reports → Reports) : (modReports f s).berth = s.berth := rfl
@[simp] theorem modReports_stations (f : Reports → Reports) : (modReports f s).stations = s.stations := rfl
@[simp] theorem modReports_field (f : Reports → Reports) : (modReports f s).field = s.field := rfl
@[simp] theorem modReports_reports (f : Reports → Reports) : (modReports f s).reports = f s.reports := rfl
@[simp] theorem modReports_uplink (f : Reports → Reports) : (modReports f s).uplink = s.uplink := rfl

@[simp] theorem modUplink_pending (f : Uplink → Uplink) : (modUplink f s).pending = s.pending := rfl
@[simp] theorem modUplink_freeCount (f : Uplink → Uplink) : (modUplink f s).freeCount = s.freeCount := rfl
@[simp] theorem modUplink_resetAsserted (f : Uplink → Uplink) : (modUplink f s).resetAsserted = s.resetAsserted := rfl
@[simp] theorem modUplink_clock (f : Uplink → Uplink) : (modUplink f s).clock = s.clock := rfl
@[simp] theorem modUplink_params (f : Uplink → Uplink) : (modUplink f s).params = s.params := rfl
@[simp] theorem modUplink_queues (f : Uplink → Uplink) : (modUplink f s).queues = s.queues := rfl
@[simp] theorem modUplink_cranes (f : Uplink → Uplink) : (modUplink f s).cranes = s.cranes := rfl
@[simp] theorem modUplink_cycles (f : Uplink → Uplink) : (modUplink f s).cycles = s.cycles := rfl
@[simp] theorem modUplink_roster (f : Uplink → Uplink) : (modUplink f s).roster = s.roster := rfl
@[simp] theorem modUplink_lanes (f : Uplink → Uplink) : (modUplink f s).lanes = s.lanes := rfl
@[simp] theorem modUplink_gateMarks (f : Uplink → Uplink) : (modUplink f s).gateMarks = s.gateMarks := rfl
@[simp] theorem modUplink_bays (f : Uplink → Uplink) : (modUplink f s).bays = s.bays := rfl
@[simp] theorem modUplink_areas (f : Uplink → Uplink) : (modUplink f s).areas = s.areas := rfl
@[simp] theorem modUplink_jobs (f : Uplink → Uplink) : (modUplink f s).jobs = s.jobs := rfl
@[simp] theorem modUplink_gangs (f : Uplink → Uplink) : (modUplink f s).gangs = s.gangs := rfl
@[simp] theorem modUplink_berth (f : Uplink → Uplink) : (modUplink f s).berth = s.berth := rfl
@[simp] theorem modUplink_stations (f : Uplink → Uplink) : (modUplink f s).stations = s.stations := rfl
@[simp] theorem modUplink_field (f : Uplink → Uplink) : (modUplink f s).field = s.field := rfl
@[simp] theorem modUplink_reports (f : Uplink → Uplink) : (modUplink f s).reports = s.reports := rfl
@[simp] theorem modUplink_uplink (f : Uplink → Uplink) : (modUplink f s).uplink = f s.uplink := rfl

@[simp] theorem setParam_pending (i : Config.Param) (v : Nat) : (setParam i v s).pending = s.pending := rfl
@[simp] theorem setParam_freeCount (i : Config.Param) (v : Nat) : (setParam i v s).freeCount = s.freeCount := rfl
@[simp] theorem setParam_resetAsserted (i : Config.Param) (v : Nat) : (setParam i v s).resetAsserted = s.resetAsserted := rfl
@[simp] theorem setParam_clock (i : Config.Param) (v : Nat) : (setParam i v s).clock = s.clock := rfl
@[simp] theorem setParam_params (i : Config.Param) (v : Nat) : (setParam i v s).params = s.params.set i v := rfl
@[simp] theorem setParam_queues (i : Config.Param) (v : Nat) : (setParam i v s).queues = s.queues := rfl
@[simp] theorem setParam_cranes (i : Config.Param) (v : Nat) : (setParam i v s).cranes = s.cranes := rfl
@[simp] theorem setParam_cycles (i : Config.Param) (v : Nat) : (setParam i v s).cycles = s.cycles := rfl
@[simp] theorem setParam_roster (i : Config.Param) (v : Nat) : (setParam i v s).roster = s.roster := rfl
@[simp] theorem setParam_lanes (i : Config.Param) (v : Nat) : (setParam i v s).lanes = s.lanes := rfl
@[simp] theorem setParam_gateMarks (i : Config.Param) (v : Nat) : (setParam i v s).gateMarks = s.gateMarks := rfl
@[simp] theorem setParam_bays (i : Config.Param) (v : Nat) : (setParam i v s).bays = s.bays := rfl
@[simp] theorem setParam_areas (i : Config.Param) (v : Nat) : (setParam i v s).areas = s.areas := rfl
@[simp] theorem setParam_jobs (i : Config.Param) (v : Nat) : (setParam i v s).jobs = s.jobs := rfl
@[simp] theorem setParam_gangs (i : Config.Param) (v : Nat) : (setParam i v s).gangs = s.gangs := rfl
@[simp] theorem setParam_berth (i : Config.Param) (v : Nat) : (setParam i v s).berth = s.berth := rfl
@[simp] theorem setParam_stations (i : Config.Param) (v : Nat) : (setParam i v s).stations = s.stations := rfl
@[simp] theorem setParam_field (i : Config.Param) (v : Nat) : (setParam i v s).field = s.field := rfl
@[simp] theorem setParam_reports (i : Config.Param) (v : Nat) : (setParam i v s).reports = s.reports := rfl
@[simp] theorem setParam_uplink (i : Config.Param) (v : Nat) : (setParam i v s).uplink = s.uplink := rfl

@[simp] theorem useFree_pending : (useFree s).pending = s.pending := rfl
@[simp] theorem useFree_freeCount : (useFree s).freeCount = s.freeCount + 1 := rfl
@[simp] theorem useFree_resetAsserted : (useFree s).resetAsserted = s.resetAsserted := rfl
@[simp] theorem useFree_clock : (useFree s).clock = s.clock := rfl
@[simp] theorem useFree_params : (useFree s).params = s.params := rfl
@[simp] theorem useFree_queues : (useFree s).queues = s.queues := rfl
@[simp] theorem useFree_cranes : (useFree s).cranes = s.cranes := rfl
@[simp] theorem useFree_cycles : (useFree s).cycles = s.cycles := rfl
@[simp] theorem useFree_roster : (useFree s).roster = s.roster := rfl
@[simp] theorem useFree_lanes : (useFree s).lanes = s.lanes := rfl
@[simp] theorem useFree_gateMarks : (useFree s).gateMarks = s.gateMarks := rfl
@[simp] theorem useFree_bays : (useFree s).bays = s.bays := rfl
@[simp] theorem useFree_areas : (useFree s).areas = s.areas := rfl
@[simp] theorem useFree_jobs : (useFree s).jobs = s.jobs := rfl
@[simp] theorem useFree_gangs : (useFree s).gangs = s.gangs := rfl
@[simp] theorem useFree_berth : (useFree s).berth = s.berth := rfl
@[simp] theorem useFree_stations : (useFree s).stations = s.stations := rfl
@[simp] theorem useFree_field : (useFree s).field = s.field := rfl
@[simp] theorem useFree_reports : (useFree s).reports = s.reports := rfl
@[simp] theorem useFree_uplink : (useFree s).uplink = s.uplink := rfl

@[simp] theorem tickClock_pending : (tickClock s).pending = s.pending := rfl
@[simp] theorem tickClock_freeCount : (tickClock s).freeCount = s.freeCount := rfl
@[simp] theorem tickClock_resetAsserted : (tickClock s).resetAsserted = s.resetAsserted := rfl
@[simp] theorem tickClock_clock : (tickClock s).clock = s.clock + 1 := rfl
@[simp] theorem tickClock_params : (tickClock s).params = s.params := rfl
@[simp] theorem tickClock_queues : (tickClock s).queues = s.queues := rfl
@[simp] theorem tickClock_cranes : (tickClock s).cranes = s.cranes := rfl
@[simp] theorem tickClock_cycles : (tickClock s).cycles = s.cycles := rfl
@[simp] theorem tickClock_roster : (tickClock s).roster = s.roster := rfl
@[simp] theorem tickClock_lanes : (tickClock s).lanes = s.lanes := rfl
@[simp] theorem tickClock_gateMarks : (tickClock s).gateMarks = s.gateMarks := rfl
@[simp] theorem tickClock_bays : (tickClock s).bays = s.bays := rfl
@[simp] theorem tickClock_areas : (tickClock s).areas = s.areas := rfl
@[simp] theorem tickClock_jobs : (tickClock s).jobs = s.jobs := rfl
@[simp] theorem tickClock_gangs : (tickClock s).gangs = s.gangs := rfl
@[simp] theorem tickClock_berth : (tickClock s).berth = s.berth := rfl
@[simp] theorem tickClock_stations : (tickClock s).stations = s.stations := rfl
@[simp] theorem tickClock_field : (tickClock s).field = s.field := rfl
@[simp] theorem tickClock_reports : (tickClock s).reports = s.reports := rfl
@[simp] theorem tickClock_uplink : (tickClock s).uplink = s.uplink := rfl

@[simp] theorem emptyMoves_pending : (emptyMoves s).pending = s.pending := rfl
@[simp] theorem emptyMoves_freeCount : (emptyMoves s).freeCount = s.freeCount := rfl
@[simp] theorem emptyMoves_resetAsserted : (emptyMoves s).resetAsserted = s.resetAsserted := rfl
@[simp] theorem emptyMoves_clock : (emptyMoves s).clock = s.clock := rfl
@[simp] theorem emptyMoves_params : (emptyMoves s).params = s.params := rfl
@[simp] theorem emptyMoves_queues : (emptyMoves s).queues = Vector.replicate 8 [] := rfl
@[simp] theorem emptyMoves_cranes : (emptyMoves s).cranes = Vector.ofFn fun k => (s.cranes[k]).reset := rfl
@[simp] theorem emptyMoves_cycles : (emptyMoves s).cycles = s.cycles := rfl
@[simp] theorem emptyMoves_roster : (emptyMoves s).roster = s.roster := rfl
@[simp] theorem emptyMoves_lanes : (emptyMoves s).lanes = Vector.ofFn fun l => (s.lanes[l]).reset := rfl
@[simp] theorem emptyMoves_gateMarks : (emptyMoves s).gateMarks = s.gateMarks := rfl
@[simp] theorem emptyMoves_bays : (emptyMoves s).bays = s.bays := rfl
@[simp] theorem emptyMoves_areas : (emptyMoves s).areas = s.areas := rfl
@[simp] theorem emptyMoves_jobs : (emptyMoves s).jobs = s.jobs := rfl
@[simp] theorem emptyMoves_gangs : (emptyMoves s).gangs = s.gangs := rfl
@[simp] theorem emptyMoves_berth : (emptyMoves s).berth = s.berth := rfl
@[simp] theorem emptyMoves_stations : (emptyMoves s).stations = s.stations := rfl
@[simp] theorem emptyMoves_field : (emptyMoves s).field = s.field := rfl
@[simp] theorem emptyMoves_reports : (emptyMoves s).reports = s.reports := rfl
@[simp] theorem emptyMoves_uplink : (emptyMoves s).uplink = s.uplink := rfl

@[simp] theorem resetLashing_pending : (resetLashing s).pending = s.pending := by simp only [resetLashing]
@[simp] theorem resetLashing_freeCount : (resetLashing s).freeCount = s.freeCount := by simp only [resetLashing]
@[simp] theorem resetLashing_resetAsserted : (resetLashing s).resetAsserted = s.resetAsserted := by simp only [resetLashing]
@[simp] theorem resetLashing_clock : (resetLashing s).clock = s.clock := by simp only [resetLashing]
@[simp] theorem resetLashing_params : (resetLashing s).params = s.params := by simp only [resetLashing]
@[simp] theorem resetLashing_queues : (resetLashing s).queues = s.queues := by simp only [resetLashing]
@[simp] theorem resetLashing_cranes : (resetLashing s).cranes = s.cranes := by simp only [resetLashing]
@[simp] theorem resetLashing_cycles : (resetLashing s).cycles = s.cycles := by simp only [resetLashing]
@[simp] theorem resetLashing_roster : (resetLashing s).roster = s.roster := by simp only [resetLashing]
@[simp] theorem resetLashing_lanes : (resetLashing s).lanes = s.lanes := by simp only [resetLashing]
@[simp] theorem resetLashing_gateMarks : (resetLashing s).gateMarks = s.gateMarks := by simp only [resetLashing]
@[simp] theorem resetLashing_bays : (resetLashing s).bays = s.bays := by simp only [resetLashing]
@[simp] theorem resetLashing_areas : (resetLashing s).areas = Vector.ofFn fun a => (s.areas[a]).reset := rfl
@[simp] theorem resetLashing_jobs : (resetLashing s).jobs = [] := rfl
@[simp] theorem resetLashing_gangs : (resetLashing s).gangs = Vector.ofFn fun g => (s.gangs[g]).reset := rfl
@[simp] theorem resetLashing_berth : (resetLashing s).berth = s.berth := by simp only [resetLashing]
@[simp] theorem resetLashing_stations : (resetLashing s).stations = s.stations := by simp only [resetLashing]
@[simp] theorem resetLashing_field : (resetLashing s).field = s.field := by simp only [resetLashing]
@[simp] theorem resetLashing_reports : (resetLashing s).reports = s.reports := by simp only [resetLashing]
@[simp] theorem resetLashing_uplink : (resetLashing s).uplink = s.uplink := by simp only [resetLashing]

@[simp] theorem emptied_pending : (emptied s).pending = s.pending := rfl
@[simp] theorem emptied_freeCount : (emptied s).freeCount = s.freeCount := rfl
@[simp] theorem emptied_resetAsserted : (emptied s).resetAsserted = s.resetAsserted := rfl
@[simp] theorem emptied_clock : (emptied s).clock = s.clock := rfl
@[simp] theorem emptied_params : (emptied s).params = s.params := rfl
@[simp] theorem emptied_queues : (emptied s).queues = Vector.replicate 8 [] := rfl
@[simp] theorem emptied_cranes : (emptied s).cranes = Vector.ofFn fun k => (s.cranes[k]).reset := rfl
@[simp] theorem emptied_cycles : (emptied s).cycles = s.cycles := rfl
@[simp] theorem emptied_roster : (emptied s).roster = s.roster := rfl
@[simp] theorem emptied_lanes : (emptied s).lanes = Vector.ofFn fun l => (s.lanes[l]).reset := rfl
@[simp] theorem emptied_gateMarks : (emptied s).gateMarks = Vector.replicate 8 true := rfl
@[simp] theorem emptied_bays : (emptied s).bays = s.bays := rfl
@[simp] theorem emptied_areas : (emptied s).areas = Vector.ofFn fun a => (s.areas[a]).reset := rfl
@[simp] theorem emptied_jobs : (emptied s).jobs = [] := rfl
@[simp] theorem emptied_gangs : (emptied s).gangs = Vector.ofFn fun g => (s.gangs[g]).reset := rfl
@[simp] theorem emptied_berth : (emptied s).berth = { s.berth with state := .held, causes := ⟨false, false, true⟩ } := rfl
@[simp] theorem emptied_stations : (emptied s).stations = Vector.replicate 22 ⟨.unknown, 0⟩ := rfl
@[simp] theorem emptied_field : (emptied s).field = { s.field with nextSlot := 0, forward := [], visit := none } := rfl
@[simp] theorem emptied_reports : (emptied s).reports = { s.reports with queue := [] } := rfl
@[simp] theorem emptied_uplink : (emptied s).uplink = { s.uplink with cutOff := s.uplink.cutOff.bind Sending.afterReset } := rfl

/-- An area that waits for no gang comes through RESET_COORD as it was (R23, R118). -/
theorem emptied_area_of_not_waiting (a : AreaNo) (h : (s.areas[a]).deck ≠ .unlashWait) (g : (s.areas[a]).deck ≠ .lashWait) :
    (emptied s).areas[a] = s.areas[a] := by
  simp only [emptied_areas, Fin.getElem_fin, Vector.getElem_ofFn, Area.reset]
  split <;> simp_all

end Sys2Proof.Machine
end

