-- ==== Sys2Proof/Laws/Frames.lean ====
section
/-! SUPPORT. What the operations made of several updates leave alone: one lemma for each of them and each field that it
does not write. -/

namespace Sys2Proof.Machine

variable (s : State)

/-- What a report changes: the report queue and its flags, and nothing else. -/
theorem report_eq (i : Items) : ∃ f : Reports → Reports, report i s = modReports f s := by
  unfold report; split
  · exact ⟨_, rfl⟩
  · split
    · rename_i x rest _
      exact ⟨fun q =>
        { queue := rest ++ [⟨i, classLevel s i.cls, q.nextSerial, s.clock, false⟩]
          nextSerial := q.nextSerial + 1
          seen := q.seen.set i.cls true
          lost := q.lost.set x.items.cls true }, rfl⟩
    · exact ⟨_, rfl⟩

/-- What a request changes: the lanes, and nothing else. -/
theorem raiseRequest_eq (k : CraneNo) (n : MoveNo) :
    ∃ v : Vector Lane 16, raiseRequest k n s = { s with lanes := v } := by
  unfold raiseRequest; split
  · exact ⟨s.lanes, rfl⟩
  · split
    · exact ⟨_, rfl⟩
    · exact ⟨s.lanes, rfl⟩

/-- What the writing of a slot changes: the lanes and the GATE_LIGHT marks, and nothing else. -/
theorem setSlot_eq (l : LaneNo) (x : Slot) :
    ∃ v : Vector Lane 16 × Vector Bool 8, setSlot l x s = { s with lanes := v.1, gateMarks := v.2 } := by
  simp only [setSlot]; split
  · exact ⟨(_, s.gateMarks), rfl⟩
  · exact ⟨(_, _), rfl⟩

@[simp] theorem report_pending (i : Items) : (report i s).pending = s.pending := by
  obtain ⟨f, h⟩ := report_eq s i; rw [h]; rfl
@[simp] theorem report_freeCount (i : Items) : (report i s).freeCount = s.freeCount := by
  obtain ⟨f, h⟩ := report_eq s i; rw [h]; rfl
@[simp] theorem report_resetAsserted (i : Items) : (report i s).resetAsserted = s.resetAsserted := by
  obtain ⟨f, h⟩ := report_eq s i; rw [h]; rfl
@[simp] theorem report_clock (i : Items) : (report i s).clock = s.clock := by
  obtain ⟨f, h⟩ := report_eq s i; rw [h]; rfl
@[simp] theorem report_params (i : Items) : (report i s).params = s.params := by
  obtain ⟨f, h⟩ := report_eq s i; rw [h]; rfl
@[simp] theorem report_queues (i : Items) : (report i s).queues = s.queues := by
  obtain ⟨f, h⟩ := report_eq s i; rw [h]; rfl
@[simp] theorem report_cranes (i : Items) : (report i s).cranes = s.cranes := by
  obtain ⟨f, h⟩ := report_eq s i; rw [h]; rfl
@[simp] theorem report_cycles (i : Items) : (report i s).cycles = s.cycles := by
  obtain ⟨f, h⟩ := report_eq s i; rw [h]; rfl
@[simp] theorem report_roster (i : Items) : (report i s).roster = s.roster := by
  obtain ⟨f, h⟩ := report_eq s i; rw [h]; rfl
@[simp] theorem report_lanes (i : Items) : (report i s).lanes = s.lanes := by
  obtain ⟨f, h⟩ := report_eq s i; rw [h]; rfl
@[simp] theorem report_gateMarks (i : Items) : (report i s).gateMarks = s.gateMarks := by
  obtain ⟨f, h⟩ := report_eq s i; rw [h]; rfl
@[simp] theorem report_bays (i : Items) : (report i s).bays = s.bays := by
  obtain ⟨f, h⟩ := report_eq s i; rw [h]; rfl
@[simp] theorem report_areas (i : Items) : (report i s).areas = s.areas := by
  obtain ⟨f, h⟩ := report_eq s i; rw [h]; rfl
@[simp] theorem report_jobs (i : Items) : (report i s).jobs = s.jobs := by
  obtain ⟨f, h⟩ := report_eq s i; rw [h]; rfl
@[simp] theorem report_gangs (i : Items) : (report i s).gangs = s.gangs := by
  obtain ⟨f, h⟩ := report_eq s i; rw [h]; rfl
@[simp] theorem report_berth (i : Items) : (report i s).berth = s.berth := by
  obtain ⟨f, h⟩ := report_eq s i; rw [h]; rfl
@[simp] theorem report_stations (i : Items) : (report i s).stations = s.stations := by
  obtain ⟨f, h⟩ := report_eq s i; rw [h]; rfl
@[simp] theorem report_field (i : Items) : (report i s).field = s.field := by
  obtain ⟨f, h⟩ := report_eq s i; rw [h]; rfl
@[simp] theorem report_uplink (i : Items) : (report i s).uplink = s.uplink := by
  obtain ⟨f, h⟩ := report_eq s i; rw [h]; rfl

@[simp] theorem testAgreement_pending (k : CraneNo) : (testAgreement k s).pending = s.pending := by simp [testAgreement]
@[simp] theorem testAgreement_freeCount (k : CraneNo) : (testAgreement k s).freeCount = s.freeCount := by simp [testAgreement]
@[simp] theorem testAgreement_resetAsserted (k : CraneNo) : (testAgreement k s).resetAsserted = s.resetAsserted := by simp [testAgreement]
@[simp] theorem testAgreement_clock (k : CraneNo) : (testAgreement k s).clock = s.clock := by simp [testAgreement]
@[simp] theorem testAgreement_params (k : CraneNo) : (testAgreement k s).params = s.params := by simp [testAgreement]
@[simp] theorem testAgreement_queues (k : CraneNo) : (testAgreement k s).queues = s.queues := by simp [testAgreement]
@[simp] theorem testAgreement_cycles (k : CraneNo) : (testAgreement k s).cycles = s.cycles := by simp [testAgreement]
@[simp] theorem testAgreement_roster (k : CraneNo) : (testAgreement k s).roster = s.roster := by simp [testAgreement]
@[simp] theorem testAgreement_lanes (k : CraneNo) : (testAgreement k s).lanes = s.lanes := by simp [testAgreement]
@[simp] theorem testAgreement_gateMarks (k : CraneNo) : (testAgreement k s).gateMarks = s.gateMarks := by simp [testAgreement]
@[simp] theorem testAgreement_bays (k : CraneNo) : (testAgreement k s).bays = s.bays := by simp [testAgreement]
@[simp] theorem testAgreement_areas (k : CraneNo) : (testAgreement k s).areas = s.areas := by simp [testAgreement]
@[simp] theorem testAgreement_jobs (k : CraneNo) : (testAgreement k s).jobs = s.jobs := by simp [testAgreement]
@[simp] theorem testAgreement_gangs (k : CraneNo) : (testAgreement k s).gangs = s.gangs := by simp [testAgreement]
@[simp] theorem testAgreement_berth (k : CraneNo) : (testAgreement k s).berth = s.berth := by simp [testAgreement]
@[simp] theorem testAgreement_stations (k : CraneNo) : (testAgreement k s).stations = s.stations := by simp [testAgreement]
@[simp] theorem testAgreement_field (k : CraneNo) : (testAgreement k s).field = s.field := by simp [testAgreement]
@[simp] theorem testAgreement_reports (k : CraneNo) : (testAgreement k s).reports = s.reports := by simp [testAgreement]
@[simp] theorem testAgreement_uplink (k : CraneNo) : (testAgreement k s).uplink = s.uplink := by simp [testAgreement]

@[simp] theorem reevaluate_pending (p : MoveRecord → Bool) : (reevaluate p s).pending = s.pending := by simp [reevaluate]
@[simp] theorem reevaluate_freeCount (p : MoveRecord → Bool) : (reevaluate p s).freeCount = s.freeCount := by simp [reevaluate]
@[simp] theorem reevaluate_resetAsserted (p : MoveRecord → Bool) : (reevaluate p s).resetAsserted = s.resetAsserted := by simp [reevaluate]
@[simp] theorem reevaluate_clock (p : MoveRecord → Bool) : (reevaluate p s).clock = s.clock := by simp [reevaluate]
@[simp] theorem reevaluate_params (p : MoveRecord → Bool) : (reevaluate p s).params = s.params := by simp [reevaluate]
@[simp] theorem reevaluate_cranes (p : MoveRecord → Bool) : (reevaluate p s).cranes = s.cranes := by simp [reevaluate]
@[simp] theorem reevaluate_cycles (p : MoveRecord → Bool) : (reevaluate p s).cycles = s.cycles := by simp [reevaluate]
@[simp] theorem reevaluate_roster (p : MoveRecord → Bool) : (reevaluate p s).roster = s.roster := by simp [reevaluate]
@[simp] theorem reevaluate_lanes (p : MoveRecord → Bool) : (reevaluate p s).lanes = s.lanes := by simp [reevaluate]
@[simp] theorem reevaluate_gateMarks (p : MoveRecord → Bool) : (reevaluate p s).gateMarks = s.gateMarks := by simp [reevaluate]
@[simp] theorem reevaluate_bays (p : MoveRecord → Bool) : (reevaluate p s).bays = s.bays := by simp [reevaluate]
@[simp] theorem reevaluate_areas (p : MoveRecord → Bool) : (reevaluate p s).areas = s.areas := by simp [reevaluate]
@[simp] theorem reevaluate_jobs (p : MoveRecord → Bool) : (reevaluate p s).jobs = s.jobs := by simp [reevaluate]
@[simp] theorem reevaluate_gangs (p : MoveRecord → Bool) : (reevaluate p s).gangs = s.gangs := by simp [reevaluate]
@[simp] theorem reevaluate_berth (p : MoveRecord → Bool) : (reevaluate p s).berth = s.berth := by simp [reevaluate]
@[simp] theorem reevaluate_stations (p : MoveRecord → Bool) : (reevaluate p s).stations = s.stations := by simp [reevaluate]
@[simp] theorem reevaluate_field (p : MoveRecord → Bool) : (reevaluate p s).field = s.field := by simp [reevaluate]
@[simp] theorem reevaluate_reports (p : MoveRecord → Bool) : (reevaluate p s).reports = s.reports := by simp [reevaluate]
@[simp] theorem reevaluate_uplink (p : MoveRecord → Bool) : (reevaluate p s).uplink = s.uplink := by simp [reevaluate]

@[simp] theorem clearHold_pending (n : MoveNo) : (clearHold n s).pending = s.pending := by simp [clearHold]
@[simp] theorem clearHold_freeCount (n : MoveNo) : (clearHold n s).freeCount = s.freeCount := by simp [clearHold]
@[simp] theorem clearHold_resetAsserted (n : MoveNo) : (clearHold n s).resetAsserted = s.resetAsserted := by simp [clearHold]
@[simp] theorem clearHold_clock (n : MoveNo) : (clearHold n s).clock = s.clock := by simp [clearHold]
@[simp] theorem clearHold_params (n : MoveNo) : (clearHold n s).params = s.params := by simp [clearHold]
@[simp] theorem clearHold_cranes (n : MoveNo) : (clearHold n s).cranes = s.cranes := by simp [clearHold]
@[simp] theorem clearHold_cycles (n : MoveNo) : (clearHold n s).cycles = s.cycles := by simp [clearHold]
@[simp] theorem clearHold_roster (n : MoveNo) : (clearHold n s).roster = s.roster := by simp [clearHold]
@[simp] theorem clearHold_lanes (n : MoveNo) : (clearHold n s).lanes = s.lanes := by simp [clearHold]
@[simp] theorem clearHold_gateMarks (n : MoveNo) : (clearHold n s).gateMarks = s.gateMarks := by simp [clearHold]
@[simp] theorem clearHold_bays (n : MoveNo) : (clearHold n s).bays = s.bays := by simp [clearHold]
@[simp] theorem clearHold_areas (n : MoveNo) : (clearHold n s).areas = s.areas := by simp [clearHold]
@[simp] theorem clearHold_jobs (n : MoveNo) : (clearHold n s).jobs = s.jobs := by simp [clearHold]
@[simp] theorem clearHold_gangs (n : MoveNo) : (clearHold n s).gangs = s.gangs := by simp [clearHold]
@[simp] theorem clearHold_berth (n : MoveNo) : (clearHold n s).berth = s.berth := by simp [clearHold]
@[simp] theorem clearHold_stations (n : MoveNo) : (clearHold n s).stations = s.stations := by simp [clearHold]
@[simp] theorem clearHold_field (n : MoveNo) : (clearHold n s).field = s.field := by simp [clearHold]
@[simp] theorem clearHold_reports (n : MoveNo) : (clearHold n s).reports = s.reports := by simp [clearHold]
@[simp] theorem clearHold_uplink (n : MoveNo) : (clearHold n s).uplink = s.uplink := by simp [clearHold]

@[simp] theorem withdrawRequests_pending (p : Request → Bool) : (withdrawRequests p s).pending = s.pending := by simp [withdrawRequests]
@[simp] theorem withdrawRequests_freeCount (p : Request → Bool) : (withdrawRequests p s).freeCount = s.freeCount := by simp [withdrawRequests]
@[simp] theorem withdrawRequests_resetAsserted (p : Request → Bool) : (withdrawRequests p s).resetAsserted = s.resetAsserted := by simp [withdrawRequests]
@[simp] theorem withdrawRequests_clock (p : Request → Bool) : (withdrawRequests p s).clock = s.clock := by simp [withdrawRequests]
@[simp] theorem withdrawRequests_params (p : Request → Bool) : (withdrawRequests p s).params = s.params := by simp [withdrawRequests]
@[simp] theorem withdrawRequests_queues (p : Request → Bool) : (withdrawRequests p s).queues = s.queues := by simp [withdrawRequests]
@[simp] theorem withdrawRequests_cranes (p : Request → Bool) : (withdrawRequests p s).cranes = s.cranes := by simp [withdrawRequests]
@[simp] theorem withdrawRequests_cycles (p : Request → Bool) : (withdrawRequests p s).cycles = s.cycles := by simp [withdrawRequests]
@[simp] theorem withdrawRequests_roster (p : Request → Bool) : (withdrawRequests p s).roster = s.roster := by simp [withdrawRequests]
@[simp] theorem withdrawRequests_gateMarks (p : Request → Bool) : (withdrawRequests p s).gateMarks = s.gateMarks := by simp [withdrawRequests]
@[simp] theorem withdrawRequests_bays (p : Request → Bool) : (withdrawRequests p s).bays = s.bays := by simp [withdrawRequests]
@[simp] theorem withdrawRequests_areas (p : Request → Bool) : (withdrawRequests p s).areas = s.areas := by simp [withdrawRequests]
@[simp] theorem withdrawRequests_jobs (p : Request → Bool) : (withdrawRequests p s).jobs = s.jobs := by simp [withdrawRequests]
@[simp] theorem withdrawRequests_gangs (p : Request → Bool) : (withdrawRequests p s).gangs = s.gangs := by simp [withdrawRequests]
@[simp] theorem withdrawRequests_berth (p : Request → Bool) : (withdrawRequests p s).berth = s.berth := by simp [withdrawRequests]
@[simp] theorem withdrawRequests_stations (p : Request → Bool) : (withdrawRequests p s).stations = s.stations := by simp [withdrawRequests]
@[simp] theorem withdrawRequests_field (p : Request → Bool) : (withdrawRequests p s).field = s.field := by simp [withdrawRequests]
@[simp] theorem withdrawRequests_reports (p : Request → Bool) : (withdrawRequests p s).reports = s.reports := by simp [withdrawRequests]
@[simp] theorem withdrawRequests_uplink (p : Request → Bool) : (withdrawRequests p s).uplink = s.uplink := by simp [withdrawRequests]

@[simp] theorem raiseRequest_pending (k : CraneNo) (n : MoveNo) : (raiseRequest k n s).pending = s.pending := by
  obtain ⟨f, h⟩ := raiseRequest_eq s k n; rw [h]
@[simp] theorem raiseRequest_freeCount (k : CraneNo) (n : MoveNo) : (raiseRequest k n s).freeCount = s.freeCount := by
  obtain ⟨f, h⟩ := raiseRequest_eq s k n; rw [h]
@[simp] theorem raiseRequest_resetAsserted (k : CraneNo) (n : MoveNo) : (raiseRequest k n s).resetAsserted = s.resetAsserted := by
  obtain ⟨f, h⟩ := raiseRequest_eq s k n; rw [h]
@[simp] theorem raiseRequest_clock (k : CraneNo) (n : MoveNo) : (raiseRequest k n s).clock = s.clock := by
  obtain ⟨f, h⟩ := raiseRequest_eq s k n; rw [h]
@[simp] theorem raiseRequest_params (k : CraneNo) (n : MoveNo) : (raiseRequest k n s).params = s.params := by
  obtain ⟨f, h⟩ := raiseRequest_eq s k n; rw [h]
@[simp] theorem raiseRequest_queues (k : CraneNo) (n : MoveNo) : (raiseRequest k n s).queues = s.queues := by
  obtain ⟨f, h⟩ := raiseRequest_eq s k n; rw [h]
@[simp] theorem raiseRequest_cranes (k : CraneNo) (n : MoveNo) : (raiseRequest k n s).cranes = s.cranes := by
  obtain ⟨f, h⟩ := raiseRequest_eq s k n; rw [h]
@[simp] theorem raiseRequest_cycles (k : CraneNo) (n : MoveNo) : (raiseRequest k n s).cycles = s.cycles := by
  obtain ⟨f, h⟩ := raiseRequest_eq s k n; rw [h]
@[simp] theorem raiseRequest_roster (k : CraneNo) (n : MoveNo) : (raiseRequest k n s).roster = s.roster := by
  obtain ⟨f, h⟩ := raiseRequest_eq s k n; rw [h]
@[simp] theorem raiseRequest_gateMarks (k : CraneNo) (n : MoveNo) : (raiseRequest k n s).gateMarks = s.gateMarks := by
  obtain ⟨f, h⟩ := raiseRequest_eq s k n; rw [h]
@[simp] theorem raiseRequest_bays (k : CraneNo) (n : MoveNo) : (raiseRequest k n s).bays = s.bays := by
  obtain ⟨f, h⟩ := raiseRequest_eq s k n; rw [h]
@[simp] theorem raiseRequest_areas (k : CraneNo) (n : MoveNo) : (raiseRequest k n s).areas = s.areas := by
  obtain ⟨f, h⟩ := raiseRequest_eq s k n; rw [h]
@[simp] theorem raiseRequest_jobs (k : CraneNo) (n : MoveNo) : (raiseRequest k n s).jobs = s.jobs := by
  obtain ⟨f, h⟩ := raiseRequest_eq s k n; rw [h]
@[simp] theorem raiseRequest_gangs (k : CraneNo) (n : MoveNo) : (raiseRequest k n s).gangs = s.gangs := by
  obtain ⟨f, h⟩ := raiseRequest_eq s k n; rw [h]
@[simp] theorem raiseRequest_berth (k : CraneNo) (n : MoveNo) : (raiseRequest k n s).berth = s.berth := by
  obtain ⟨f, h⟩ := raiseRequest_eq s k n; rw [h]
@[simp] theorem raiseRequest_stations (k : CraneNo) (n : MoveNo) : (raiseRequest k n s).stations = s.stations := by
  obtain ⟨f, h⟩ := raiseRequest_eq s k n; rw [h]
@[simp] theorem raiseRequest_field (k : CraneNo) (n : MoveNo) : (raiseRequest k n s).field = s.field := by
  obtain ⟨f, h⟩ := raiseRequest_eq s k n; rw [h]
@[simp] theorem raiseRequest_reports (k : CraneNo) (n : MoveNo) : (raiseRequest k n s).reports = s.reports := by
  obtain ⟨f, h⟩ := raiseRequest_eq s k n; rw [h]
@[simp] theorem raiseRequest_uplink (k : CraneNo) (n : MoveNo) : (raiseRequest k n s).uplink = s.uplink := by
  obtain ⟨f, h⟩ := raiseRequest_eq s k n; rw [h]

@[simp] theorem setSlot_pending (l : LaneNo) (x : Slot) : (setSlot l x s).pending = s.pending := by
  obtain ⟨f, h⟩ := setSlot_eq s l x; rw [h]
@[simp] theorem setSlot_freeCount (l : LaneNo) (x : Slot) : (setSlot l x s).freeCount = s.freeCount := by
  obtain ⟨f, h⟩ := setSlot_eq s l x; rw [h]
@[simp] theorem setSlot_resetAsserted (l : LaneNo) (x : Slot) : (setSlot l x s).resetAsserted = s.resetAsserted := by
  obtain ⟨f, h⟩ := setSlot_eq s l x; rw [h]
@[simp] theorem setSlot_clock (l : LaneNo) (x : Slot) : (setSlot l x s).clock = s.clock := by
  obtain ⟨f, h⟩ := setSlot_eq s l x; rw [h]
@[simp] theorem setSlot_params (l : LaneNo) (x : Slot) : (setSlot l x s).params = s.params := by
  obtain ⟨f, h⟩ := setSlot_eq s l x; rw [h]
@[simp] theorem setSlot_queues (l : LaneNo) (x : Slot) : (setSlot l x s).queues = s.queues := by
  obtain ⟨f, h⟩ := setSlot_eq s l x; rw [h]
@[simp] theorem setSlot_cranes (l : LaneNo) (x : Slot) : (setSlot l x s).cranes = s.cranes := by
  obtain ⟨f, h⟩ := setSlot_eq s l x; rw [h]
@[simp] theorem setSlot_cycles (l : LaneNo) (x : Slot) : (setSlot l x s).cycles = s.cycles := by
  obtain ⟨f, h⟩ := setSlot_eq s l x; rw [h]
@[simp] theorem setSlot_roster (l : LaneNo) (x : Slot) : (setSlot l x s).roster = s.roster := by
  obtain ⟨f, h⟩ := setSlot_eq s l x; rw [h]
@[simp] theorem setSlot_bays (l : LaneNo) (x : Slot) : (setSlot l x s).bays = s.bays := by
  obtain ⟨f, h⟩ := setSlot_eq s l x; rw [h]
@[simp] theorem setSlot_areas (l : LaneNo) (x : Slot) : (setSlot l x s).areas = s.areas := by
  obtain ⟨f, h⟩ := setSlot_eq s l x; rw [h]
@[simp] theorem setSlot_jobs (l : LaneNo) (x : Slot) : (setSlot l x s).jobs = s.jobs := by
  obtain ⟨f, h⟩ := setSlot_eq s l x; rw [h]
@[simp] theorem setSlot_gangs (l : LaneNo) (x : Slot) : (setSlot l x s).gangs = s.gangs := by
  obtain ⟨f, h⟩ := setSlot_eq s l x; rw [h]
@[simp] theorem setSlot_berth (l : LaneNo) (x : Slot) : (setSlot l x s).berth = s.berth := by
  obtain ⟨f, h⟩ := setSlot_eq s l x; rw [h]
@[simp] theorem setSlot_stations (l : LaneNo) (x : Slot) : (setSlot l x s).stations = s.stations := by
  obtain ⟨f, h⟩ := setSlot_eq s l x; rw [h]
@[simp] theorem setSlot_field (l : LaneNo) (x : Slot) : (setSlot l x s).field = s.field := by
  obtain ⟨f, h⟩ := setSlot_eq s l x; rw [h]
@[simp] theorem setSlot_reports (l : LaneNo) (x : Slot) : (setSlot l x s).reports = s.reports := by
  obtain ⟨f, h⟩ := setSlot_eq s l x; rw [h]
@[simp] theorem setSlot_uplink (l : LaneNo) (x : Slot) : (setSlot l x s).uplink = s.uplink := by
  obtain ⟨f, h⟩ := setSlot_eq s l x; rw [h]

@[simp] theorem setDeck_pending (a : AreaNo) (d : Deck) (c : AreaCause) : (setDeck a d c s).pending = s.pending := by simp [setDeck]
@[simp] theorem setDeck_freeCount (a : AreaNo) (d : Deck) (c : AreaCause) : (setDeck a d c s).freeCount = s.freeCount := by simp [setDeck]
@[simp] theorem setDeck_resetAsserted (a : AreaNo) (d : Deck) (c : AreaCause) : (setDeck a d c s).resetAsserted = s.resetAsserted := by simp [setDeck]
@[simp] theorem setDeck_clock (a : AreaNo) (d : Deck) (c : AreaCause) : (setDeck a d c s).clock = s.clock := by simp [setDeck]
@[simp] theorem setDeck_params (a : AreaNo) (d : Deck) (c : AreaCause) : (setDeck a d c s).params = s.params := by simp [setDeck]
@[simp] theorem setDeck_cranes (a : AreaNo) (d : Deck) (c : AreaCause) : (setDeck a d c s).cranes = s.cranes := by simp [setDeck]
@[simp] theorem setDeck_cycles (a : AreaNo) (d : Deck) (c : AreaCause) : (setDeck a d c s).cycles = s.cycles := by simp [setDeck]
@[simp] theorem setDeck_roster (a : AreaNo) (d : Deck) (c : AreaCause) : (setDeck a d c s).roster = s.roster := by simp [setDeck]
@[simp] theorem setDeck_lanes (a : AreaNo) (d : Deck) (c : AreaCause) : (setDeck a d c s).lanes = s.lanes := by simp [setDeck]
@[simp] theorem setDeck_gateMarks (a : AreaNo) (d : Deck) (c : AreaCause) : (setDeck a d c s).gateMarks = s.gateMarks := by simp [setDeck]
@[simp] theorem setDeck_bays (a : AreaNo) (d : Deck) (c : AreaCause) : (setDeck a d c s).bays = s.bays := by simp [setDeck]
@[simp] theorem setDeck_jobs (a : AreaNo) (d : Deck) (c : AreaCause) : (setDeck a d c s).jobs = s.jobs := by simp [setDeck]
@[simp] theorem setDeck_gangs (a : AreaNo) (d : Deck) (c : AreaCause) : (setDeck a d c s).gangs = s.gangs := by simp [setDeck]
@[simp] theorem setDeck_berth (a : AreaNo) (d : Deck) (c : AreaCause) : (setDeck a d c s).berth = s.berth := by simp [setDeck]
@[simp] theorem setDeck_stations (a : AreaNo) (d : Deck) (c : AreaCause) : (setDeck a d c s).stations = s.stations := by simp [setDeck]
@[simp] theorem setDeck_field (a : AreaNo) (d : Deck) (c : AreaCause) : (setDeck a d c s).field = s.field := by simp [setDeck]
@[simp] theorem setDeck_uplink (a : AreaNo) (d : Deck) (c : AreaCause) : (setDeck a d c s).uplink = s.uplink := by simp [setDeck]

@[simp] theorem setGangPresent_pending (a : AreaNo) (g : Option GangNo) : (setGangPresent a g s).pending = s.pending := by simp [setGangPresent]
@[simp] theorem setGangPresent_freeCount (a : AreaNo) (g : Option GangNo) : (setGangPresent a g s).freeCount = s.freeCount := by simp [setGangPresent]
@[simp] theorem setGangPresent_resetAsserted (a : AreaNo) (g : Option GangNo) : (setGangPresent a g s).resetAsserted = s.resetAsserted := by simp [setGangPresent]
@[simp] theorem setGangPresent_clock (a : AreaNo) (g : Option GangNo) : (setGangPresent a g s).clock = s.clock := by simp [setGangPresent]
@[simp] theorem setGangPresent_params (a : AreaNo) (g : Option GangNo) : (setGangPresent a g s).params = s.params := by simp [setGangPresent]
@[simp] theorem setGangPresent_cranes (a : AreaNo) (g : Option GangNo) : (setGangPresent a g s).cranes = s.cranes := by simp [setGangPresent]
@[simp] theorem setGangPresent_cycles (a : AreaNo) (g : Option GangNo) : (setGangPresent a g s).cycles = s.cycles := by simp [setGangPresent]
@[simp] theorem setGangPresent_roster (a : AreaNo) (g : Option GangNo) : (setGangPresent a g s).roster = s.roster := by simp [setGangPresent]
@[simp] theorem setGangPresent_lanes (a : AreaNo) (g : Option GangNo) : (setGangPresent a g s).lanes = s.lanes := by simp [setGangPresent]
@[simp] theorem setGangPresent_gateMarks (a : AreaNo) (g : Option GangNo) : (setGangPresent a g s).gateMarks = s.gateMarks := by simp [setGangPresent]
@[simp] theorem setGangPresent_bays (a : AreaNo) (g : Option GangNo) : (setGangPresent a g s).bays = s.bays := by simp [setGangPresent]
@[simp] theorem setGangPresent_jobs (a : AreaNo) (g : Option GangNo) : (setGangPresent a g s).jobs = s.jobs := by simp [setGangPresent]
@[simp] theorem setGangPresent_gangs (a : AreaNo) (g : Option GangNo) : (setGangPresent a g s).gangs = s.gangs := by simp [setGangPresent]
@[simp] theorem setGangPresent_berth (a : AreaNo) (g : Option GangNo) : (setGangPresent a g s).berth = s.berth := by simp [setGangPresent]
@[simp] theorem setGangPresent_stations (a : AreaNo) (g : Option GangNo) : (setGangPresent a g s).stations = s.stations := by simp [setGangPresent]
@[simp] theorem setGangPresent_field (a : AreaNo) (g : Option GangNo) : (setGangPresent a g s).field = s.field := by simp [setGangPresent]
@[simp] theorem setGangPresent_reports (a : AreaNo) (g : Option GangNo) : (setGangPresent a g s).reports = s.reports := by simp [setGangPresent]
@[simp] theorem setGangPresent_uplink (a : AreaNo) (g : Option GangNo) : (setGangPresent a g s).uplink = s.uplink := by simp [setGangPresent]

@[simp] theorem withdrawJob_pending (a : AreaNo) (d : Deck) (c : AreaCause) : (withdrawJob a d c s).pending = s.pending := by simp [withdrawJob]
@[simp] theorem withdrawJob_freeCount (a : AreaNo) (d : Deck) (c : AreaCause) : (withdrawJob a d c s).freeCount = s.freeCount := by simp [withdrawJob]
@[simp] theorem withdrawJob_resetAsserted (a : AreaNo) (d : Deck) (c : AreaCause) : (withdrawJob a d c s).resetAsserted = s.resetAsserted := by simp [withdrawJob]
@[simp] theorem withdrawJob_clock (a : AreaNo) (d : Deck) (c : AreaCause) : (withdrawJob a d c s).clock = s.clock := by simp [withdrawJob]
@[simp] theorem withdrawJob_params (a : AreaNo) (d : Deck) (c : AreaCause) : (withdrawJob a d c s).params = s.params := by simp [withdrawJob]
@[simp] theorem withdrawJob_cranes (a : AreaNo) (d : Deck) (c : AreaCause) : (withdrawJob a d c s).cranes = s.cranes := by simp [withdrawJob]
@[simp] theorem withdrawJob_cycles (a : AreaNo) (d : Deck) (c : AreaCause) : (withdrawJob a d c s).cycles = s.cycles := by simp [withdrawJob]
@[simp] theorem withdrawJob_roster (a : AreaNo) (d : Deck) (c : AreaCause) : (withdrawJob a d c s).roster = s.roster := by simp [withdrawJob]
@[simp] theorem withdrawJob_lanes (a : AreaNo) (d : Deck) (c : AreaCause) : (withdrawJob a d c s).lanes = s.lanes := by simp [withdrawJob]
@[simp] theorem withdrawJob_gateMarks (a : AreaNo) (d : Deck) (c : AreaCause) : (withdrawJob a d c s).gateMarks = s.gateMarks := by simp [withdrawJob]
@[simp] theorem withdrawJob_bays (a : AreaNo) (d : Deck) (c : AreaCause) : (withdrawJob a d c s).bays = s.bays := by simp [withdrawJob]
@[simp] theorem withdrawJob_gangs (a : AreaNo) (d : Deck) (c : AreaCause) : (withdrawJob a d c s).gangs = s.gangs := by simp [withdrawJob]
@[simp] theorem withdrawJob_berth (a : AreaNo) (d : Deck) (c : AreaCause) : (withdrawJob a d c s).berth = s.berth := by simp [withdrawJob]
@[simp] theorem withdrawJob_stations (a : AreaNo) (d : Deck) (c : AreaCause) : (withdrawJob a d c s).stations = s.stations := by simp [withdrawJob]
@[simp] theorem withdrawJob_field (a : AreaNo) (d : Deck) (c : AreaCause) : (withdrawJob a d c s).field = s.field := by simp [withdrawJob]
@[simp] theorem withdrawJob_uplink (a : AreaNo) (d : Deck) (c : AreaCause) : (withdrawJob a d c s).uplink = s.uplink := by simp [withdrawJob]

@[simp] theorem giveJob_pending (g : GangNo) (j : Job) : (giveJob g j s).pending = s.pending := by simp [giveJob]
@[simp] theorem giveJob_freeCount (g : GangNo) (j : Job) : (giveJob g j s).freeCount = s.freeCount := by simp [giveJob]
@[simp] theorem giveJob_resetAsserted (g : GangNo) (j : Job) : (giveJob g j s).resetAsserted = s.resetAsserted := by simp [giveJob]
@[simp] theorem giveJob_clock (g : GangNo) (j : Job) : (giveJob g j s).clock = s.clock := by simp [giveJob]
@[simp] theorem giveJob_params (g : GangNo) (j : Job) : (giveJob g j s).params = s.params := by simp [giveJob]
@[simp] theorem giveJob_cranes (g : GangNo) (j : Job) : (giveJob g j s).cranes = s.cranes := by simp [giveJob]
@[simp] theorem giveJob_cycles (g : GangNo) (j : Job) : (giveJob g j s).cycles = s.cycles := by simp [giveJob]
@[simp] theorem giveJob_roster (g : GangNo) (j : Job) : (giveJob g j s).roster = s.roster := by simp [giveJob]
@[simp] theorem giveJob_lanes (g : GangNo) (j : Job) : (giveJob g j s).lanes = s.lanes := by simp [giveJob]
@[simp] theorem giveJob_gateMarks (g : GangNo) (j : Job) : (giveJob g j s).gateMarks = s.gateMarks := by simp [giveJob]
@[simp] theorem giveJob_bays (g : GangNo) (j : Job) : (giveJob g j s).bays = s.bays := by simp [giveJob]
@[simp] theorem giveJob_berth (g : GangNo) (j : Job) : (giveJob g j s).berth = s.berth := by simp [giveJob]
@[simp] theorem giveJob_stations (g : GangNo) (j : Job) : (giveJob g j s).stations = s.stations := by simp [giveJob]
@[simp] theorem giveJob_field (g : GangNo) (j : Job) : (giveJob g j s).field = s.field := by simp [giveJob]
@[simp] theorem giveJob_uplink (g : GangNo) (j : Job) : (giveJob g j s).uplink = s.uplink := by simp [giveJob]

@[simp] theorem reserve_pending (k : CraneNo) (m : MoveNo) (l : LaneNo) : (reserve k m l s).pending = s.pending := by simp [reserve]
@[simp] theorem reserve_freeCount (k : CraneNo) (m : MoveNo) (l : LaneNo) : (reserve k m l s).freeCount = s.freeCount := by simp [reserve]
@[simp] theorem reserve_resetAsserted (k : CraneNo) (m : MoveNo) (l : LaneNo) : (reserve k m l s).resetAsserted = s.resetAsserted := by simp [reserve]
@[simp] theorem reserve_clock (k : CraneNo) (m : MoveNo) (l : LaneNo) : (reserve k m l s).clock = s.clock := by simp [reserve]
@[simp] theorem reserve_params (k : CraneNo) (m : MoveNo) (l : LaneNo) : (reserve k m l s).params = s.params := by simp [reserve]
@[simp] theorem reserve_cranes (k : CraneNo) (m : MoveNo) (l : LaneNo) : (reserve k m l s).cranes = s.cranes := by simp [reserve]
@[simp] theorem reserve_cycles (k : CraneNo) (m : MoveNo) (l : LaneNo) : (reserve k m l s).cycles = s.cycles := by simp [reserve]
@[simp] theorem reserve_roster (k : CraneNo) (m : MoveNo) (l : LaneNo) : (reserve k m l s).roster = s.roster := by simp [reserve]
@[simp] theorem reserve_bays (k : CraneNo) (m : MoveNo) (l : LaneNo) : (reserve k m l s).bays = s.bays := by simp [reserve]
@[simp] theorem reserve_areas (k : CraneNo) (m : MoveNo) (l : LaneNo) : (reserve k m l s).areas = s.areas := by simp [reserve]
@[simp] theorem reserve_jobs (k : CraneNo) (m : MoveNo) (l : LaneNo) : (reserve k m l s).jobs = s.jobs := by simp [reserve]
@[simp] theorem reserve_gangs (k : CraneNo) (m : MoveNo) (l : LaneNo) : (reserve k m l s).gangs = s.gangs := by simp [reserve]
@[simp] theorem reserve_berth (k : CraneNo) (m : MoveNo) (l : LaneNo) : (reserve k m l s).berth = s.berth := by simp [reserve]
@[simp] theorem reserve_stations (k : CraneNo) (m : MoveNo) (l : LaneNo) : (reserve k m l s).stations = s.stations := by simp [reserve]
@[simp] theorem reserve_field (k : CraneNo) (m : MoveNo) (l : LaneNo) : (reserve k m l s).field = s.field := by simp [reserve]
@[simp] theorem reserve_reports (k : CraneNo) (m : MoveNo) (l : LaneNo) : (reserve k m l s).reports = s.reports := by simp [reserve]
@[simp] theorem reserve_uplink (k : CraneNo) (m : MoveNo) (l : LaneNo) : (reserve k m l s).uplink = s.uplink := by simp [reserve]

@[simp] theorem toActive_pending (k : CraneNo) (r : MoveRecord) : (toActive k r s).pending = s.pending := by simp [toActive]
@[simp] theorem toActive_freeCount (k : CraneNo) (r : MoveRecord) : (toActive k r s).freeCount = s.freeCount := by simp [toActive]
@[simp] theorem toActive_resetAsserted (k : CraneNo) (r : MoveRecord) : (toActive k r s).resetAsserted = s.resetAsserted := by simp [toActive]
@[simp] theorem toActive_clock (k : CraneNo) (r : MoveRecord) : (toActive k r s).clock = s.clock := by simp [toActive]
@[simp] theorem toActive_params (k : CraneNo) (r : MoveRecord) : (toActive k r s).params = s.params := by simp [toActive]
@[simp] theorem toActive_cycles (k : CraneNo) (r : MoveRecord) : (toActive k r s).cycles = s.cycles := by simp [toActive]
@[simp] theorem toActive_roster (k : CraneNo) (r : MoveRecord) : (toActive k r s).roster = s.roster := by simp [toActive]
@[simp] theorem toActive_lanes (k : CraneNo) (r : MoveRecord) : (toActive k r s).lanes = s.lanes := by simp [toActive]
@[simp] theorem toActive_gateMarks (k : CraneNo) (r : MoveRecord) : (toActive k r s).gateMarks = s.gateMarks := by simp [toActive]
@[simp] theorem toActive_bays (k : CraneNo) (r : MoveRecord) : (toActive k r s).bays = s.bays := by simp [toActive]
@[simp] theorem toActive_areas (k : CraneNo) (r : MoveRecord) : (toActive k r s).areas = s.areas := by simp [toActive]
@[simp] theorem toActive_jobs (k : CraneNo) (r : MoveRecord) : (toActive k r s).jobs = s.jobs := by simp [toActive]
@[simp] theorem toActive_gangs (k : CraneNo) (r : MoveRecord) : (toActive k r s).gangs = s.gangs := by simp [toActive]
@[simp] theorem toActive_berth (k : CraneNo) (r : MoveRecord) : (toActive k r s).berth = s.berth := by simp [toActive]
@[simp] theorem toActive_stations (k : CraneNo) (r : MoveRecord) : (toActive k r s).stations = s.stations := by simp [toActive]
@[simp] theorem toActive_field (k : CraneNo) (r : MoveRecord) : (toActive k r s).field = s.field := by simp [toActive]
@[simp] theorem toActive_reports (k : CraneNo) (r : MoveRecord) : (toActive k r s).reports = s.reports := by simp [toActive]
@[simp] theorem toActive_uplink (k : CraneNo) (r : MoveRecord) : (toActive k r s).uplink = s.uplink := by simp [toActive]

@[simp] theorem toStaged_pending (k : CraneNo) (r : MoveRecord) : (toStaged k r s).pending = s.pending := by simp [toStaged]
@[simp] theorem toStaged_freeCount (k : CraneNo) (r : MoveRecord) : (toStaged k r s).freeCount = s.freeCount := by simp [toStaged]
@[simp] theorem toStaged_resetAsserted (k : CraneNo) (r : MoveRecord) : (toStaged k r s).resetAsserted = s.resetAsserted := by simp [toStaged]
@[simp] theorem toStaged_clock (k : CraneNo) (r : MoveRecord) : (toStaged k r s).clock = s.clock := by simp [toStaged]
@[simp] theorem toStaged_params (k : CraneNo) (r : MoveRecord) : (toStaged k r s).params = s.params := by simp [toStaged]
@[simp] theorem toStaged_cycles (k : CraneNo) (r : MoveRecord) : (toStaged k r s).cycles = s.cycles := by simp [toStaged]
@[simp] theorem toStaged_roster (k : CraneNo) (r : MoveRecord) : (toStaged k r s).roster = s.roster := by simp [toStaged]
@[simp] theorem toStaged_lanes (k : CraneNo) (r : MoveRecord) : (toStaged k r s).lanes = s.lanes := by simp [toStaged]
@[simp] theorem toStaged_gateMarks (k : CraneNo) (r : MoveRecord) : (toStaged k r s).gateMarks = s.gateMarks := by simp [toStaged]
@[simp] theorem toStaged_bays (k : CraneNo) (r : MoveRecord) : (toStaged k r s).bays = s.bays := by simp [toStaged]
@[simp] theorem toStaged_areas (k : CraneNo) (r : MoveRecord) : (toStaged k r s).areas = s.areas := by simp [toStaged]
@[simp] theorem toStaged_jobs (k : CraneNo) (r : MoveRecord) : (toStaged k r s).jobs = s.jobs := by simp [toStaged]
@[simp] theorem toStaged_gangs (k : CraneNo) (r : MoveRecord) : (toStaged k r s).gangs = s.gangs := by simp [toStaged]
@[simp] theorem toStaged_berth (k : CraneNo) (r : MoveRecord) : (toStaged k r s).berth = s.berth := by simp [toStaged]
@[simp] theorem toStaged_stations (k : CraneNo) (r : MoveRecord) : (toStaged k r s).stations = s.stations := by simp [toStaged]
@[simp] theorem toStaged_field (k : CraneNo) (r : MoveRecord) : (toStaged k r s).field = s.field := by simp [toStaged]
@[simp] theorem toStaged_reports (k : CraneNo) (r : MoveRecord) : (toStaged k r s).reports = s.reports := by simp [toStaged]
@[simp] theorem toStaged_uplink (k : CraneNo) (r : MoveRecord) : (toStaged k r s).uplink = s.uplink := by simp [toStaged]

end Sys2Proof.Machine
end

