-- ==== Sys2Proof/Laws/Quiet.lean ====
section
/-! SUPPORT. What the release, lane and lashing machinery can do, said once: each of its operations is a sequence of
quiet steps. A later proof takes the operation's `_quiet` lemma and an induction over quiet steps, and never opens the
operation. -/

namespace Sys2Proof.Machine

/-- The deck state that an area must have for a job of this kind to be created, and to which the job's withdrawal
returns it (R104 to R107). -/
def JobKind.before : JobKind → Deck
  | .unlash => .lashed
  | .lash => .opened

/-- One quiet step: a primitive change that evaluations, call checks, lane rules and dispatch passes are made of. -/
inductive Quiet : State → State → Prop
  | reported (i : Items) (s : State) : Quiet s (report i s)
  | reevaluated (p : MoveRecord → Bool) (s : State) : Quiet s (reevaluate p s)
  | agreed (k : CraneNo) (s : State) : Quiet s (testAgreement k s)
  | slotSet (l : LaneNo) (x : Slot) (s : State) : Quiet s (setSlot l x s)
  | held (n : MoveNo) (f : MoveRecord → Option LaneNo × Bool) (s : State) :
      Quiet s (modMove n (fun r => { r with lane := (f r).1, called := (f r).2 }) s)
  | unrequested (p : Request → Bool) (s : State) : Quiet s (withdrawRequests p s)
  | raised (k : CraneNo) (n : MoveNo) (s : State) : Quiet s (raiseRequest k n s)
  | owned (k : CraneNo) (l : LaneNo) (s : State) :
      Quiet s (modLane l (fun x =>
        { x with owner := if x.use.sharedBy k && x.owner.isNone then some k else x.owner }) s)
  | jobCreated (a : AreaNo) (k : JobKind) (c : AreaCause) (s : State) (h : (s.areas[a]).deck = k.before) :
      Quiet s (setDeck a k.waiting c (setJobs (s.jobs ++ [⟨a, k⟩]) s))
  | jobWithdrawn (a : AreaNo) (k : JobKind) (c : AreaCause) (s : State) (h : (s.areas[a]).deck = k.waiting) :
      Quiet s (withdrawJob a k.before c s)
  | jobGiven (g : GangNo) (j : Job) (s : State) (running : s.berth.state = .running) (free : gangFree s g = true)
      (mem : j ∈ s.jobs) (clear : dispatchable s j = true) : Quiet s (giveJob g j s)
  | activated (k : CraneNo) (r : MoveRecord) (s : State) (cond : releaseCondition s k = true)
      (none : (s.cranes[k]).active = none) (mem : r ∈ s.queues[k]) : Quiet s (toActive k r s)
  | staged (k : CraneNo) (r : MoveRecord) (s : State) (cond : releaseCondition s k = true)
      (some : (s.cranes[k]).active.isSome = true) (mem : r ∈ s.queues[k]) : Quiet s (toStaged k r s)
  | freeUsed (s : State) : Quiet s (useFree s)

/-- A sequence of quiet steps. -/
abbrev QReach : State → State → Prop := Relation.ReflTransGen Quiet

theorem Quiet.reach {s t : State} (h : Quiet s t) : QReach s t := .single h

/-- A fold of operations each of which is quiet is quiet. -/
theorem QReach.foldl {α : Type} (f : State → α → State) (h : ∀ s a, QReach s (f s a)) :
    ∀ (as : List α) (s : State), QReach s (as.foldl f s)
  | [], _ => .refl
  | a :: as, s => (h s a).trans (QReach.foldl f h as (f s a))

/-! ### Flags, lashing -/

theorem report_quiet (i : Items) (s : State) : QReach s (report i s) := (Quiet.reported i s).reach

theorem testAgreement_quiet (k : CraneNo) (s : State) : QReach s (testAgreement k s) := (Quiet.agreed k s).reach

theorem serviceOrder_mem {js : List Job} {j : Job} (h : j ∈ serviceOrder js) : j ∈ js := by
  rcases List.mem_append.mp h with h | h <;> exact (List.mem_filter.mp h).1

theorem serveGang_quiet (s : State) (hb : s.berth.state = .running) (g : GangNo) : QReach s (serveGang s g) := by
  unfold serveGang
  split
  · rename_i hf
    split
    · rename_i j hj
      exact (Quiet.jobGiven g j s hb hf (serviceOrder_mem (List.mem_of_find?_eq_some hj))
        (List.find?_some hj)).reach
    · exact .refl
  · exact .refl

@[simp] theorem serveGang_berth (s : State) (g : GangNo) : (serveGang s g).berth = s.berth := by
  unfold serveGang; split
  · split <;> simp
  · rfl

theorem dispatchPass_quiet (s : State) : QReach s (dispatchPass s) := by
  unfold dispatchPass
  split
  · rename_i hb
    suffices h : ∀ (gs : List GangNo) (t : State), t.berth.state = .running → QReach t (gs.foldl serveGang t) from h _ s hb
    intro gs
    induction gs with
    | nil => exact fun _ _ => .refl
    | cons g gs ih => exact fun t ht => (serveGang_quiet t ht g).trans (ih _ (by simpa using ht))
  · exact .refl

theorem queueJob_quiet (a : AreaNo) (k : JobKind) (c : AreaCause) (s : State) (h : (s.areas[a]).deck = k.before) :
    QReach s (queueJob a k c s) := (Quiet.jobCreated a k c s h).reach

theorem createJob_quiet (a : AreaNo) (k : JobKind) (c : AreaCause) (s : State) (h : (s.areas[a]).deck = k.before) :
    QReach s (createJob a k c s) := (queueJob_quiet a k c s h).trans (dispatchPass_quiet _)

/-- The unlash test calls for a job only on a LASHED area. -/
theorem unlashDue_deck {s : State} {a : AreaNo} (h : unlashDue s a = true) : (s.areas[a]).deck = .lashed := by
  simp only [unlashDue, Bool.and_eq_true, decide_eq_true_eq] at h; exact h.1

/-- The lash test calls for a job only on an OPEN area. -/
theorem lashDue_deck {s : State} {a : AreaNo} (h : lashDue s a = true) : (s.areas[a]).deck = .opened := by
  simp only [lashDue, Bool.and_eq_true, decide_eq_true_eq] at h; exact h.1.1

theorem unlashTest_quiet (s : State) (a : AreaNo) : QReach s (unlashTest s a) := by
  unfold unlashTest; split
  · rename_i h; exact createJob_quiet a .unlash _ s (unlashDue_deck h)
  · exact .refl

theorem lashTest_quiet (s : State) (a : AreaNo) : QReach s (lashTest s a) := by
  unfold lashTest; split
  · rename_i h; exact createJob_quiet a .lash _ s (lashDue_deck h)
  · exact .refl

theorem unlashWithdrawTest_quiet (s : State) (a : AreaNo) : QReach s (unlashWithdrawTest s a) := by
  unfold unlashWithdrawTest; split
  · rename_i h; exact (Quiet.jobWithdrawn a .unlash _ s h.1).reach
  · exact .refl

theorem queueChanged_quiet (k : CraneNo) (s : State) : QReach s (queueChanged k s) :=
  QReach.foldl _ unlashTest_quiet _ _

theorem deckPointsLost_quiet (as : List AreaNo) (s : State) : QReach s (deckPointsLost as s) :=
  QReach.foldl _ (fun s a => (unlashWithdrawTest_quiet s a).trans (lashTest_quiet _ a)) _ _

theorem deckPointsGained_quiet (as : List AreaNo) (s : State) : QReach s (deckPointsGained as s) := by
  refine QReach.foldl _ (fun s a => ?_) _ _
  show QReach s (if s.areas[a].deck = .lashWait then _ else s)
  split
  · rename_i h; exact (Quiet.jobWithdrawn a .lash _ s h).reach
  · exact .refl

/-! ### Lanes -/

theorem setSlot_quiet (l : LaneNo) (x : Slot) (s : State) : QReach s (setSlot l x s) := (Quiet.slotSet l x s).reach

theorem clearHold_quiet (m : MoveNo) (s : State) : QReach s (clearHold m s) :=
  (Quiet.held m (fun _ => (none, false)) s).reach

theorem withdrawRequests_quiet (p : Request → Bool) (s : State) : QReach s (withdrawRequests p s) :=
  (Quiet.unrequested p s).reach

theorem raiseRequest_quiet (k : CraneNo) (n : MoveNo) (s : State) : QReach s (raiseRequest k n s) :=
  (Quiet.raised k n s).reach

theorem reserve_quiet (k : CraneNo) (m : MoveNo) (l : LaneNo) (s : State) : QReach s (reserve k m l s) :=
  (((setSlot_quiet l _ s).tail (Quiet.held m (fun _ => (some l, false)) _)).tail (Quiet.owned k l _)).tail
    (Quiet.unrequested _ _)

theorem forceArrived_quiet (l : LaneNo) (m : MoveNo) (s : State) : QReach s (forceArrived l m s) := by
  unfold forceArrived; split
  · exact (setSlot_quiet ..).trans (report_quiet ..)
  · exact .refl

theorem laneEvent_quiet (l : LaneNo) (m : MoveNo) (last : Bool) (s : State) : QReach s (laneEvent l m last s) := by
  unfold laneEvent
  refine (forceArrived_quiet l m s).trans ?_
  dsimp only; split
  · exact (setSlot_quiet ..).trans (clearHold_quiet ..)
  · exact .refl

theorem releaseSlot_quiet (c : ReleaseCause) (s : State) (l : LaneNo) : QReach s (releaseSlot c s l) := by
  unfold releaseSlot; split
  · exact .refl
  · exact .refl
  · exact (setSlot_quiet ..).trans (clearHold_quiet ..)
  · exact ((setSlot_quiet ..).trans (clearHold_quiet ..)).trans (report_quiet ..)
  · exact ((setSlot_quiet ..).trans (clearHold_quiet ..)).trans (report_quiet ..)

theorem releaseSlots_quiet (c : ReleaseCause) (p : CraneNo → MoveRecord → Bool) (s : State) :
    QReach s (releaseSlots c p s) := by
  refine QReach.foldl _ (fun s l => ?_) _ _
  split
  · split
    · exact releaseSlot_quiet ..
    · exact .refl
  · exact .refl

/-! ### The candidate search and release -/

theorem dropStaleRequest_quiet (k : CraneNo) (s : State) : QReach s (dropStaleRequest k s) := withdrawRequests_quiet ..

/-- The release condition reads the cranes, the stations and the berth alone. -/
theorem releaseCondition_congr {s t : State} (k : CraneNo) (hc : t.cranes = s.cranes) (hs : t.stations = s.stations)
    (hb : t.berth = s.berth) : releaseCondition t k = releaseCondition s k := by
  cases s; cases t; cases hc; cases hs; cases hb; rfl

/-- What the candidate search leaves: the cranes, stations and berth as they were, by quiet steps. -/
theorem searchMoves_spec (k : CraneNo) : ∀ (rs : List MoveRecord) (s : State),
    QReach s (searchMoves k rs s).1 ∧ (searchMoves k rs s).1.cranes = s.cranes ∧
      (searchMoves k rs s).1.stations = s.stations ∧ (searchMoves k rs s).1.berth = s.berth
  | [], s => ⟨.refl, rfl, rfl, rfl⟩
  | r :: rs, s => by
    unfold searchMoves
    split
    · exact searchMoves_spec k rs s
    · split
      · split
        · exact ⟨.refl, rfl, rfl, rfl⟩
        · exact searchMoves_spec k rs s
      · split
        · obtain ⟨h, hc, hs, hb⟩ := searchMoves_spec k rs (raiseRequest k r.number s)
          exact ⟨(raiseRequest_quiet k r.number s).trans h, by simpa using hc, by simpa using hs, by simpa using hb⟩
        · split
          · exact ⟨.refl, rfl, rfl, rfl⟩
          · exact searchMoves_spec k rs s

@[simp] theorem reserveFound_cranes (k : CraneNo) (c : Candidate) (s : State) : (reserveFound k c s).cranes = s.cranes := by
  unfold reserveFound; split <;> simp [reserve, withdrawRequests]
@[simp] theorem reserveFound_stations (k : CraneNo) (c : Candidate) (s : State) :
    (reserveFound k c s).stations = s.stations := by
  unfold reserveFound; split <;> simp [reserve, withdrawRequests]
@[simp] theorem reserveFound_berth (k : CraneNo) (c : Candidate) (s : State) : (reserveFound k c s).berth = s.berth := by
  unfold reserveFound; split <;> simp [reserve, withdrawRequests]

theorem reserveFound_quiet (k : CraneNo) (c : Candidate) (s : State) : QReach s (reserveFound k c s) := by
  unfold reserveFound; split
  · exact reserve_quiet ..
  · exact .refl

theorem findIn_mem {s : State} {k : CraneNo} {n : MoveNo} {r : MoveRecord} (h : findIn s k n = some r) :
    r ∈ s.queues[k] ∧ r.number = n :=
  ⟨List.mem_of_find?_eq_some h, by simpa using List.find?_some h⟩

theorem releaseMove_quiet (k : CraneNo) (c : Candidate) (s : State) (h : releaseCondition s k = true) :
    QReach s (releaseMove k c s) := by
  unfold releaseMove
  refine (reserveFound_quiet k c s).trans ?_
  have hc : releaseCondition (reserveFound k c s) k = true := by
    rw [releaseCondition_congr k (reserveFound_cranes ..) (reserveFound_stations ..) (reserveFound_berth ..)]; exact h
  dsimp only
  split
  · exact .refl
  · rename_i r hr
    have hm := (findIn_mem hr).1
    refine .trans ?_ ((testAgreement_quiet k _).trans (queueChanged_quiet k _))
    split
    · rename_i ha
      exact (Quiet.activated k r _ hc (by simpa using ha) hm).reach
    · rename_i ha
      refine (Quiet.staged k r _ hc ?_ hm).reach
      exact Option.ne_none_iff_isSome.mp (by simpa using ha)

@[simp] theorem dropStaleRequest_cranes (k : CraneNo) (s : State) : (dropStaleRequest k s).cranes = s.cranes := rfl
@[simp] theorem dropStaleRequest_stations (k : CraneNo) (s : State) : (dropStaleRequest k s).stations = s.stations := rfl
@[simp] theorem dropStaleRequest_berth (k : CraneNo) (s : State) : (dropStaleRequest k s).berth = s.berth := rfl

theorem searchAndRelease_quiet (k : CraneNo) (s : State) (h : releaseCondition s k = true) :
    QReach s (searchAndRelease k s) := by
  unfold searchAndRelease
  obtain ⟨hq, hc, hs, hb⟩ := searchMoves_spec k (window s k) s
  split
  · rename_i u hu; rw [hu] at hq; exact hq
  · rename_i u c hu
    rw [hu] at hq hc hs hb
    refine hq.trans (releaseMove_quiet k c u ?_)
    rw [releaseCondition_congr k (by simpa using hc) (by simpa using hs) (by simpa using hb)]; exact h

/-! ### Frames that the second search needs -/

/-- Lashing steps leave the cranes, the stations and the berth alone. -/
structure LashFrame (s t : State) : Prop where
  cranes : t.cranes = s.cranes
  stations : t.stations = s.stations
  berth : t.berth = s.berth

theorem LashFrame.refl (s : State) : LashFrame s s := ⟨rfl, rfl, rfl⟩

theorem LashFrame.trans {s t u : State} (h : LashFrame s t) (h' : LashFrame t u) : LashFrame s u :=
  ⟨h'.cranes.trans h.cranes, h'.stations.trans h.stations, h'.berth.trans h.berth⟩

theorem setDeck_lash (a : AreaNo) (d : Deck) (c : AreaCause) (s : State) : LashFrame s (setDeck a d c s) := by
  constructor <;> simp [setDeck, reevaluate]

theorem giveJob_lash (g : GangNo) (j : Job) (s : State) : LashFrame s (giveJob g j s) := by
  constructor <;> simp [giveJob, setGangPresent, setDeck, reevaluate]

theorem serveGang_lash (s : State) (g : GangNo) : LashFrame s (serveGang s g) := by
  unfold serveGang; split
  · split
    · exact giveJob_lash ..
    · exact .refl _
  · exact .refl _

theorem LashFrame.foldl {α : Type} (f : State → α → State) (h : ∀ s a, LashFrame s (f s a)) :
    ∀ (as : List α) (s : State), LashFrame s (as.foldl f s)
  | [], s => .refl s
  | a :: as, s => (h s a).trans (LashFrame.foldl f h as (f s a))

theorem dispatchPass_lash (s : State) : LashFrame s (dispatchPass s) := by
  unfold dispatchPass; split
  · exact LashFrame.foldl _ serveGang_lash _ _
  · exact .refl _

theorem unlashTest_lash (s : State) (a : AreaNo) : LashFrame s (unlashTest s a) := by
  unfold unlashTest createJob queueJob; split
  · refine LashFrame.trans ?_ (dispatchPass_lash _)
    constructor <;> simp [setDeck, reevaluate]
  · exact .refl _

theorem queueChanged_lash (k : CraneNo) (s : State) : LashFrame s (queueChanged k s) :=
  LashFrame.foldl _ unlashTest_lash _ _

/-- After a release that fills an empty active slot, the release condition still holds: the staged slot is empty and
the rest of the condition is untouched. -/
theorem releaseMove_again (k : CraneNo) (c : Candidate) (s : State) (h : releaseCondition s k = true)
    (hn : (s.cranes[k]).active = none) : releaseCondition (releaseMove k c s) k = true := by
  unfold releaseMove
  have hc : releaseCondition (reserveFound k c s) k = true := by
    rw [releaseCondition_congr k (reserveFound_cranes ..) (reserveFound_stations ..) (reserveFound_berth ..)]; exact h
  dsimp only
  split
  · exact hc
  · rename_i r hr
    have hl := queueChanged_lash k (testAgreement k (if (reserveFound k c s).cranes[k].active.isNone
      then toActive k r (reserveFound k c s) else toStaged k r (reserveFound k c s)))
    rw [releaseCondition_congr k hl.cranes hl.stations hl.berth]
    simp only [reserveFound_cranes, hn, Option.isNone_none, if_true]
    simp only [releaseCondition, craneOpen, stationState, Bool.and_eq_true] at hc ⊢
    simpa [toActive, testAgreement, withdrawPending] using hc

theorem searchAndRelease_again (k : CraneNo) (s : State) (h : releaseCondition s k = true)
    (hn : (s.cranes[k]).active = none) : releaseCondition (searchAndRelease k s) k = true := by
  unfold searchAndRelease
  obtain ⟨-, hc, hs, hb⟩ := searchMoves_spec k (window s k) s
  split
  · rename_i u hu
    rw [hu] at hc hs hb
    rw [releaseCondition_congr k (by simpa using hc) (by simpa using hs) (by simpa using hb)]; exact h
  · rename_i u c hu
    rw [hu] at hc hs hb
    have hu' : releaseCondition u k = true := by
      rw [releaseCondition_congr k (by simpa using hc) (by simpa using hs) (by simpa using hb)]; exact h
    exact releaseMove_again k c u hu' (by rw [show u.cranes = s.cranes by simpa using hc]; exact hn)

/-! ### Evaluations and call checks -/

theorem releaseWork_quiet (k : CraneNo) (s : State) : QReach s (releaseWork k s) := by
  unfold releaseWork
  split
  · rename_i h
    dsimp only
    split
    · rename_i ha
      have hn : (s.cranes[k]).active = none := by simpa using ha.1
      exact (searchAndRelease_quiet k s h).trans (searchAndRelease_quiet k _ (searchAndRelease_again k s h hn))
    · exact searchAndRelease_quiet k s h
  · exact .refl

theorem evaluateOnce_quiet (k : CraneNo) (s : State) : QReach s (evaluateOnce k s) :=
  (dropStaleRequest_quiet k s).trans (releaseWork_quiet k _)

theorem issueCall_quiet (r : MoveRecord) (l : LaneNo) (a : Nat) (s : State) : QReach s (issueCall r l a s) :=
  (((setSlot_quiet l _ s).tail (Quiet.held r.number (fun x => (x.lane, true)) _))).trans (report_quiet _ _)

theorem checkReserve_quiet (k : CraneNo) (n : MoveNo) (s : State) : QReach s (checkReserve k n s) := by
  unfold checkReserve; split
  · exact .refl
  · split
    · split
      · exact reserve_quiet ..
      · exact raiseRequest_quiet ..
    · exact .refl

theorem checkCall_quiet (k : CraneNo) (n : MoveNo) (a : Nat) (s : State) : QReach s (checkCall k n a s) := by
  unfold checkCall; split
  · exact .refl
  · split
    · exact .refl
    · split
      · exact issueCall_quiet ..
      · exact .refl

theorem checkMoves_quiet (k : CraneNo) (s : State) : QReach s (checkMoves k s) :=
  (dropStaleRequest_quiet k s).trans
    (QReach.foldl _ (fun _ _ => (checkReserve_quiet ..).trans (checkCall_quiet ..)) _ _)

theorem checkAfterActivation_quiet (k : CraneNo) (s : State) : QReach s (checkAfterActivation k s) := by
  unfold checkAfterActivation; split
  · dsimp only; split
    · exact (checkMoves_quiet k s).trans (evaluateOnce_quiet ..)
    · exact checkMoves_quiet k s
  · exact .refl

/-- An evaluation is quiet. -/
theorem evaluate_quiet (k : CraneNo) (s : State) : QReach s (evaluate k s) := by
  unfold evaluate; dsimp only; split
  · exact (evaluateOnce_quiet k s).trans (checkAfterActivation_quiet ..)
  · exact evaluateOnce_quiet k s

/-- A call check is quiet. -/
theorem callCheck_quiet (k : CraneNo) (s : State) : QReach s (callCheck k s) := by
  unfold callCheck; split
  · dsimp only; split
    · exact (checkMoves_quiet k s).trans (evaluate_quiet ..)
    · exact checkMoves_quiet k s
  · exact .refl

/-- The evaluation of several cranes is quiet, in whatever order the part takes them. -/
theorem evaluateMany_quiet (ks : List CraneNo) (s : State) : QReach s (evaluateMany ks s) := by
  unfold evaluateMany; split
  · exact .refl
  · exact evaluate_quiet ..
  · exact (Quiet.freeUsed s).reach.trans (QReach.foldl _ (fun s k => evaluate_quiet k s) _ _)

theorem tellRelease_quiet (s0 s : State) : QReach s (tellRelease s0 s) := evaluateMany_quiet ..

end Sys2Proof.Machine
end

