-- ==== Sys2Proof/Laws/QuietFrame.lean ====
section
/-! SUPPORT. What quiet steps leave alone: everything outside the move table, the slots and marks of the cranes, the
lanes, the lashing tables and the report queue; and, within the move table, which records there are and what was planned
for them. -/

namespace Sys2Proof.Machine

/-! ### The parts of the state that no quiet step writes -/

/-- The parts of the state outside the release, lane and lashing machinery are the same. -/
structure Keeps (s t : State) : Prop where
  pending : t.pending = s.pending
  resetAsserted : t.resetAsserted = s.resetAsserted
  clock : t.clock = s.clock
  params : t.params = s.params
  cycles : t.cycles = s.cycles
  roster : t.roster = s.roster
  bays : t.bays = s.bays
  berth : t.berth = s.berth
  stations : t.stations = s.stations
  field : t.field = s.field
  uplink : t.uplink = s.uplink

theorem Keeps.refl (s : State) : Keeps s s := ⟨rfl, rfl, rfl, rfl, rfl, rfl, rfl, rfl, rfl, rfl, rfl⟩

theorem Keeps.trans {s t u : State} (h : Keeps s t) (h' : Keeps t u) : Keeps s u :=
  ⟨h'.pending.trans h.pending, h'.resetAsserted.trans h.resetAsserted, h'.clock.trans h.clock,
    h'.params.trans h.params, h'.cycles.trans h.cycles, h'.roster.trans h.roster, h'.bays.trans h.bays,
    h'.berth.trans h.berth, h'.stations.trans h.stations, h'.field.trans h.field, h'.uplink.trans h.uplink⟩

theorem report_keeps (i : Items) (s : State) : Keeps s (report i s) := by constructor <;> simp

theorem Quiet.keeps {s t : State} (h : Quiet s t) : Keeps s t := by
  cases h <;> constructor <;> simp

/-- A sequence of quiet steps leaves everything named by `Keeps` alone. -/
theorem QReach.keeps {s t : State} (h : QReach s t) : Keeps s t := by
  induction h with
  | refl => exact .refl s
  | tail _ hb ih => exact ih.trans hb.keeps

/-! ### Crane contexts -/

theorem CraneKeeps.refl (c : Crane) : CraneKeeps c c :=
  ⟨rfl, rfl, rfl, rfl, rfl, rfl, rfl, rfl, rfl, rfl, rfl, fun _ h => h, fun _ h => h, .inl rfl, .inl rfl⟩

theorem CraneKeeps.trans {c d e : Crane} (h : CraneKeeps c d) (h' : CraneKeeps d e) : CraneKeeps c e where
  mode := h'.mode.trans h.mode
  held := h'.held.trans h.held
  fault := h'.fault.trans h.fault
  position := h'.position.trans h.position
  wind := h'.wind.trans h.wind
  serial := h'.serial.trans h.serial
  view := h'.view.trans h.view
  jobWanted := h'.jobWanted.trans h.jobWanted
  lastCompletion := h'.lastCompletion.trans h.lastCompletion
  directive := h'.directive.trans h.directive
  silenceStart := h'.silenceStart.trans h.silenceStart
  active := fun n hn => h'.active n (h.active n hn)
  staged := fun n hn => h'.staged n (h.staged n hn)
  defer := by rcases h'.defer with e | e <;> [exact e ▸ h.defer; exact .inr e]
  wait := by rcases h'.wait with e | e <;> [exact e ▸ h.wait; exact .inr e]

/-- The crane `j` of a state in which crane `k` alone was rewritten. -/
theorem modCrane_get (k j : CraneNo) (f : Crane → Crane) (s : State) :
    (modCrane k f s).cranes[j] = if j = k then f s.cranes[k] else s.cranes[j] := by
  simp only [modCrane_cranes, Fin.getElem_fin, Vector.getElem_set]
  by_cases h : j = k
  · subst h; simp
  · have h' : k.val ≠ j.val := fun e => h (Fin.ext e.symm)
    simp [h, h']

theorem Quiet.crane {s t : State} (h : Quiet s t) (j : CraneNo) : CraneKeeps s.cranes[j] t.cranes[j] := by
  have keep : ∀ {u : State}, u.cranes = s.cranes → CraneKeeps s.cranes[j] u.cranes[j] := fun e => by
    rw [e]; exact .refl _
  cases h with
  | reported i => exact keep (report_cranes ..)
  | reevaluated p => exact keep (by simp)
  | agreed k =>
    unfold testAgreement
    rw [modCrane_get]; split
    · rename_i e; subst e
      exact ⟨rfl, rfl, rfl, rfl, rfl, rfl, rfl, rfl, rfl, rfl, rfl, fun _ h => h, fun _ h => h, .inl rfl, .inl rfl⟩
    · exact .refl _
  | slotSet l x => exact keep (setSlot_cranes ..)
  | held n f => exact keep (by simp)
  | unrequested p => exact keep (by simp)
  | raised k n => exact keep (raiseRequest_cranes ..)
  | owned k l => exact keep (by simp)
  | jobCreated a k c => exact keep (setDeck_cranes ..)
  | jobWithdrawn a k c => exact keep (setDeck_cranes ..)
  | jobGiven g j => exact keep (giveJob_lash ..).cranes
  | activated k r _ _ hn =>
    unfold toActive
    rw [modCrane_get]; split
    · rename_i e; subst e
      refine ⟨rfl, rfl, rfl, rfl, rfl, rfl, rfl, rfl, rfl, rfl, rfl, fun n h => ?_, fun _ h => h, .inr rfl, .inr rfl⟩
      rw [hn] at h; cases h
    · exact .refl _
  | staged k r _ hc =>
    unfold toStaged
    rw [modCrane_get]; split
    · rename_i e; subst e
      refine ⟨rfl, rfl, rfl, rfl, rfl, rfl, rfl, rfl, rfl, rfl, rfl, fun _ h => h, fun n h => ?_, .inl rfl, .inl rfl⟩
      simp only [releaseCondition, Bool.and_eq_true, Option.isNone_iff_eq_none] at hc
      rw [hc.2] at h; cases h
    · exact .refl _
  | freeUsed => exact keep (by simp)

/-- A sequence of quiet steps does to each crane context no more than `CraneKeeps` says. -/
theorem QReach.crane {s t : State} (h : QReach s t) (j : CraneNo) : CraneKeeps s.cranes[j] t.cranes[j] := by
  induction h with
  | refl => exact .refl _
  | tail _ hb ih => exact ih.trans (hb.crane j)

/-! ### The move table -/

theorem SamePlan.refl (r : MoveRecord) : SamePlan r r := ⟨rfl, rfl, rfl, rfl, rfl⟩

theorem SamePlan.trans {r r' r'' : MoveRecord} (h : SamePlan r r') (h' : SamePlan r' r'') : SamePlan r r'' :=
  ⟨h'.number.trans h.number, h'.kind.trans h.kind, h'.legs.trans h.legs, h'.afterMove.trans h.afterMove,
    h'.abandoned.trans h.abandoned⟩

theorem SameMoves.refl (q : List MoveRecord) : SameMoves q q :=
  ⟨.refl _, fun r h => ⟨r, h, rfl⟩, fun r h => ⟨r, h, .refl r⟩⟩

theorem SameMoves.trans {q q' q'' : List MoveRecord} (h : SameMoves q q') (h' : SameMoves q' q'') :
    SameMoves q q'' where
  numbers := h'.numbers.trans h.numbers
  kept := fun r hr => by
    obtain ⟨r', hr', e⟩ := h.kept r hr
    obtain ⟨r'', hr'', e'⟩ := h'.kept r' hr'
    exact ⟨r'', hr'', e'.trans e⟩
  plan := fun r'' hr'' => by
    obtain ⟨r', hr', e'⟩ := h'.plan r'' hr''
    obtain ⟨r, hr, e⟩ := h.plan r' hr'
    exact ⟨r, hr, e.trans e'⟩

/-- Rewriting every record in a way that keeps its plan keeps the moves. -/
theorem SameMoves.map {f : MoveRecord → MoveRecord} (h : ∀ r, SamePlan r (f r)) (q : List MoveRecord) :
    SameMoves q (q.map f) where
  numbers := by
    have : (q.map f).map (·.number) = q.map (·.number) := by
      rw [List.map_map]; exact List.map_congr_left fun r _ => (h r).number
    rw [this]
  kept := fun r hr => ⟨f r, List.mem_map_of_mem hr, (h r).number⟩
  plan := fun r' hr' => by
    obtain ⟨r, hr, rfl⟩ := List.mem_map.mp hr'
    exact ⟨r, hr, h r⟩

/-- The numbers of a queue without one number. -/
theorem without_numbers (n : MoveNo) (q : List MoveRecord) :
    (without n q).map (·.number) = (q.map (·.number)).filter (fun m => decide (m ≠ n)) := by
  simp [without, List.filter_map, Function.comp_def]

/-- Taking a member out of a list by its value and putting it back keeps the members, and multiplies none. -/
theorem subperm_reinsert {n : MoveNo} {l : List MoveNo} (h : n ∈ l) :
    (n :: l.filter fun m => decide (m ≠ n)).Subperm l := by
  obtain ⟨a, b, rfl⟩ := List.append_of_mem h
  have h1 : List.Sublist ((a ++ n :: b).filter (fun m => decide (m ≠ n))) (a ++ b) := by
    simp only [List.filter_append, List.filter_cons, ne_eq, not_true_eq_false, decide_false, Bool.false_eq_true,
      if_false]
    exact List.filter_sublist.append List.filter_sublist
  exact ((h1.cons_cons n).subperm).trans List.perm_middle.symm.subperm

/-- The queue `k` of a state in which queue `j` alone was written. -/
theorem setQueue_get (k j : CraneNo) (q : List MoveRecord) (s : State) :
    (setQueue k q s).queues[j] = if j = k then q else s.queues[j] := by
  simp only [setQueue_queues, Fin.getElem_fin, Vector.getElem_set]
  by_cases h : j = k
  · subst h; simp
  · have h' : k.val ≠ j.val := fun e => h (Fin.ext e.symm)
    simp [h, h']

@[simp] theorem mapMoves_get (f : MoveRecord → MoveRecord) (s : State) (j : CraneNo) :
    (mapMoves f s).queues[j] = (s.queues[j]).map f := by simp

/-- A record put in front of the other records of its queue, its plan kept. -/
theorem SameMoves.front {q : List MoveRecord} {r r' : MoveRecord} (hr : r ∈ q) (h : SamePlan r r') :
    SameMoves q (r' :: without r.number q) where
  numbers := by
    rw [List.map_cons, without_numbers, h.number]
    exact subperm_reinsert (List.mem_map_of_mem hr)
  kept := fun x hx => by
    by_cases e : x.number = r.number
    · exact ⟨r', List.mem_cons_self, h.number.trans e.symm⟩
    · exact ⟨x, List.mem_cons_of_mem _ (List.mem_filter.mpr ⟨hx, by simpa using e⟩), rfl⟩
  plan := fun x hx => by
    rcases List.mem_cons.mp hx with rfl | hx
    · exact ⟨r, hr, h⟩
    · exact ⟨x, (List.mem_filter.mp hx).1, .refl x⟩

/-- Reordering a queue keeps the moves. -/
theorem SameMoves.perm {q q' q'' : List MoveRecord} (h : SameMoves q q') (p : q''.Perm q') : SameMoves q q'' where
  numbers := ((p.map _).subperm).trans h.numbers
  kept := fun r hr => by
    obtain ⟨r', hr', e⟩ := h.kept r hr
    exact ⟨r', p.mem_iff.mpr hr', e⟩
  plan := fun r' hr' => h.plan r' (p.mem_iff.mp hr')

theorem split_insert_perm (p : MoveRecord → Bool) (r : MoveRecord) (q : List MoveRecord) :
    (q.takeWhile p ++ r :: q.dropWhile p).Perm (r :: q) := by
  refine List.perm_middle.trans ?_
  rw [List.takeWhile_append_dropWhile]

theorem placeBehindActive_perm (r : MoveRecord) (q : List MoveRecord) : (placeBehindActive r q).Perm (r :: q) :=
  split_insert_perm ..

theorem placeBehindBusy_perm (r : MoveRecord) (q : List MoveRecord) : (placeBehindBusy r q).Perm (r :: q) :=
  split_insert_perm ..

theorem placeBefore_perm (r : MoveRecord) (n : MoveNo) (q : List MoveRecord) : (placeBefore r n q).Perm (r :: q) :=
  split_insert_perm ..

theorem evaluateRecord_plan (s : State) (r : MoveRecord) : SamePlan r (evaluateRecord s r) := by
  unfold evaluateRecord; split <;> exact ⟨rfl, rfl, rfl, rfl, rfl⟩

theorem reevaluate_moves (p : MoveRecord → Bool) (s : State) (j : CraneNo) :
    SameMoves s.queues[j] (reevaluate p s).queues[j] := by
  unfold reevaluate
  rw [mapMoves_get]
  refine SameMoves.map (fun r => ?_) _
  split
  · exact evaluateRecord_plan s r
  · exact .refl r

theorem setDeck_moves (a : AreaNo) (d : Deck) (c : AreaCause) (s : State) (j : CraneNo) :
    SameMoves s.queues[j] (setDeck a d c s).queues[j] := by
  unfold setDeck
  have h := reevaluate_moves (fun r => decide (a ∈ deckAreas
    (report (.area a s.areas[a].deck d c) (modArea a (fun x => { x with deck := d }) s)) r))
    (report (.area a s.areas[a].deck d c) (modArea a (fun x => { x with deck := d }) s)) j
  simpa only [report_queues, modArea_queues] using h

theorem setGangPresent_moves (a : AreaNo) (g : Option GangNo) (s : State) (j : CraneNo) :
    SameMoves s.queues[j] (setGangPresent a g s).queues[j] := by
  unfold setGangPresent
  have h := reevaluate_moves (fun r => decide (a ∈ pointAreas (modArea a (fun x => { x with gang := g }) s) r))
    (modArea a (fun x => { x with gang := g }) s) j
  simpa only [modArea_queues] using h

theorem setDeck_setJobs_moves (a : AreaNo) (d : Deck) (c : AreaCause) (js : List Job) (s : State) (j : CraneNo) :
    SameMoves s.queues[j] (setDeck a d c (setJobs js s)).queues[j] := by
  have h := setDeck_moves a d c (setJobs js s) j
  rwa [setJobs_queues] at h

theorem giveJob_moves (g : GangNo) (x : Job) (s : State) (j : CraneNo) :
    SameMoves s.queues[j] (giveJob g x s).queues[j] := by
  unfold giveJob
  rw [report_queues]
  refine SameMoves.trans ?_ (setGangPresent_moves ..)
  have h := setDeck_moves x.area x.kind.underWay .dispatched (modGang g (fun y => { y with state := .sent x, mark := .job })
    (setJobs (s.jobs.filter fun y => decide (y.area ≠ x.area)) s)) j
  simpa only [modGang_queues, setJobs_queues] using h

theorem Quiet.moves {s t : State} (h : Quiet s t) (j : CraneNo) : SameMoves s.queues[j] t.queues[j] := by
  have keep : ∀ {u : State}, u.queues = s.queues → SameMoves s.queues[j] u.queues[j] := fun e => by
    rw [e]; exact .refl _
  cases h with
  | reported i => exact keep (report_queues ..)
  | reevaluated p => exact reevaluate_moves ..
  | agreed k => exact keep (by simp)
  | slotSet l x => exact keep (setSlot_queues ..)
  | held n f =>
    unfold modMove
    rw [mapMoves_get]
    refine SameMoves.map (fun r => ?_) _
    split
    · exact ⟨rfl, rfl, rfl, rfl, rfl⟩
    · exact .refl r
  | unrequested p => exact keep (by simp)
  | raised k n => exact keep (raiseRequest_queues ..)
  | owned k l => exact keep (by simp)
  | jobCreated a k c => exact setDeck_setJobs_moves ..
  | jobWithdrawn a k c => exact setDeck_setJobs_moves ..
  | jobGiven g x => exact giveJob_moves ..
  | activated k r _ _ _ hr =>
    unfold toActive
    rw [modCrane_queues, setQueue_get]; split
    · rename_i e; subst e
      exact SameMoves.front hr ⟨rfl, rfl, rfl, rfl, rfl⟩
    · exact .refl _
  | staged k r _ _ _ hr =>
    unfold toStaged
    rw [modCrane_queues, setQueue_get]; split
    · rename_i e; subst e
      exact (SameMoves.front (r' := { r with state := .staged }) hr ⟨rfl, rfl, rfl, rfl, rfl⟩).perm
        (placeBehindActive_perm ..)
    · exact .refl _
  | freeUsed => exact keep (by simp)

/-- A sequence of quiet steps keeps the moves of every queue. -/
theorem QReach.moves {s t : State} (h : QReach s t) (j : CraneNo) : SameMoves s.queues[j] t.queues[j] := by
  induction h with
  | refl => exact .refl _
  | tail _ hb ih => exact ih.trans (hb.moves j)

end Sys2Proof.Machine
end

