-- ==== Sys2Proof/Laws/Change.lean ====
section
/-! SUPPORT. What a command can do to the state, said once: it is a sequence of changes, each a quiet step or one of a
short list of writes with the guard under which they are made. `Laws/Commands.lean` proves it of every command; an
invariant is then proved by one case for each kind of change. -/

namespace Sys2Proof.Machine

/-! ### Guards -/

/-- What the slots of a crane context always satisfy: a STAGED move only beside an ACTIVE one (R36), and none beside a
pending WITHDRAW (R126). -/
structure SlotsSound (c : Crane) : Prop where
  staged : c.staged.isSome → c.active.isSome
  withdraw : withdrawPending c = true → c.staged = none

/-- An ABSENT crane has no directive pending (R25). -/
def ModeSound (c : Crane) : Prop := c.mode = .absent → c.directive = none

/-- A rewriting of a crane context that keeps it sound, and keeps the crane in the roster or out of it. -/
structure CraneChange (c d : Crane) : Prop where
  slots : SlotsSound c → SlotsSound d
  sound : ModeSound c → ModeSound d
  mode : ModeSound c → (d.mode = .absent ↔ c.mode = .absent)

/-- A rewriting of a lane that raises no request, and leaves the owner alone where it leaves a request standing. -/
def LaneChange (x y : Lane) : Prop := y.request = none ∨ (y.request = x.request ∧ y.owner = x.owner)

/-- The berth state is RUNNING exactly when the cause set is empty (R130). -/
def BerthSound (b : Berth) : Prop := b.state = .running ↔ b.causes.empty = true

/-- The inbound queue is within its capacity, and the ready output is as R159 says of its fill. -/
structure UplinkSound (u : Uplink) : Prop where
  inbound : u.inbound.length ≤ 8
  negated : 6 ≤ u.inbound.length → u.ready = false
  asserted : u.inbound.length ≤ 2 → u.ready = true

/-- The forward queue and the poll plan are within their capacities. -/
structure FieldSound (f : Field) : Prop where
  forward : f.forward.length ≤ 16
  plan : f.plan.length ≤ 32

/-- A station record is within R141 and R150. -/
def StationSound (x : StationRecord) : Prop := x.missed ≤ 3 ∧ (x.state = .silent ↔ x.missed = 3)

/-- A DONE of gang `g` on job `j` as far as the lashing tables go (R110). -/
def jobDone (g : GangNo) (j : Job) (s : State) : State :=
  modGang g (fun x => { x with state := .idle, mark := .clear })
    (setGangPresent j.area none (setDeck j.area j.kind.ended .done s))

/-- Gang `g` leaves job `j` with mark `m` (R111, R117). -/
def jobLeft (g : GangNo) (j : Job) (m : GangMark) (s : State) : State :=
  modGang g (fun x => { x with state := .off, mark := m }) (returnJob j s)

/-- An area written by LOAD_AREAS, before its lash test (R102). -/
def areaLoaded (a : AreaNo) (d : Deck) (flag : Bool) (s : State) : State :=
  let t := modArea a (fun x => { x with lashRequired := flag }) (setJobs (s.jobs.filter fun j => decide (j.area ≠ a)) s)
  if t.areas[a].deck = d then t else setDeck a d .loaded t

/-- One change. `loads` tells whether areas may be loaded: LOAD_AREAS alone does so. -/
inductive Change (loads : Prop) : State → State → Prop
  | quiet {s t : State} (h : Quiet s t) : Change loads s t
  | poweredOn (asserted : Bool) (s : State) :
      Change loads s (State.powerOn s.pending s.freeCount asserted s.berth.rawClosed)
  | resetLeft (s : State) (h : s.resetAsserted = true) : Change loads s (leaveReset s)
  | craneWritten (k : CraneNo) (f : Crane → Crane) (s : State) (h : CraneChange s.cranes[k] (f s.cranes[k])) :
      Change loads s (modCrane k f s)
  | positionsLowered (s : State) : Change loads s (lowerPositions s)
  | berthWritten (f : Berth → Berth) (s : State) (h : BerthSound s.berth → BerthSound (f s.berth)) :
      Change loads s (modBerth f s)
  | movesRewritten (f : MoveRecord → MoveRecord) (s : State) (h : ∀ r, (f r).number = r.number) :
      Change loads s (mapMoves f s)
  | queueKept (k : CraneNo) (q : List MoveRecord) (s : State)
      (h : (q.map (·.number)).Subperm ((s.queues[k]).map (·.number))) : Change loads s (setQueue k q s)
  | moveAdded (k : CraneNo) (r : MoveRecord) (q : List MoveRecord) (s : State) (perm : q.Perm (r :: s.queues[k]))
      (new : inPool s r.number = false) (room : (pool s).length < 512) (queueRoom : (s.queues[k]).length < 96) :
      Change loads s (setQueue k q s)
  | settingsWritten (p : Vector Nat 40) (cy : Vector Cycle 8) (s : State)
      (h : ParamLaw s → ParamLaw { s with params := p, cycles := cy }) :
      Change loads s { s with params := p, cycles := cy }
  | rosterWritten (k : CraneNo) (e : Option RosterEntry) (f : Crane → Crane) (s : State)
      (mode : RosterLaw s → ((f s.cranes[k]).mode = .absent ↔ e = none))
      (slots : SlotsSound s.cranes[k] → SlotsSound (f s.cranes[k]))
      (sound : ModeSound s.cranes[k] → ModeSound (f s.cranes[k])) :
      Change loads s (modCrane k f (setRoster k e s))
  | laneWritten (l : LaneNo) (f : Lane → Lane) (s : State) (h : LaneChange s.lanes[l] (f s.lanes[l])) :
      Change loads s (modLane l f s)
  | lanesWritten (f : Lane → Lane) (s : State) (h : ∀ x, LaneChange x (f x)) : Change loads s (mapLanes f s)
  | gateMarked (u : GateNo) (b : Bool) (s : State) : Change loads s (setGateMark u b s)
  | bayWritten (i : Fin 64) (r : Option BayRow) (s : State) : Change loads s (setBay i r s)
  | loaded (a : AreaNo) (d : Deck) (flag : Bool) (s : State) (h : loads) : Change loads s (areaLoaded a d flag s)
  | gangWritten (g : GangNo) (f : Gang → Gang) (s : State)
      (h : (f s.gangs[g]).state.job = (s.gangs[g]).state.job) : Change loads s (modGang g f s)
  | done (g : GangNo) (j : Job) (s : State) (h : (s.gangs[g]).state.job = some j) : Change loads s (jobDone g j s)
  | left (g : GangNo) (j : Job) (m : GangMark) (s : State) (h : (s.gangs[g]).state.job = some j) :
      Change loads s (jobLeft g j m s)
  | stationWritten (st : Station) (f : StationRecord → StationRecord) (s : State)
      (h : StationSound (s.stations[st.index]) → StationSound (f (s.stations[st.index]))) :
      Change loads s (modStation st f s)
  | fieldWritten (f : Field → Field) (s : State) (h : FieldSound s.field → FieldSound (f s.field)) :
      Change loads s (modField f s)
  | reportsWritten (f : Reports → Reports) (s : State) (h : (f s.reports).queue.length ≤ s.reports.queue.length) :
      Change loads s (modReports f s)
  | uplinkWritten (f : Uplink → Uplink) (s : State) (h : UplinkSound s.uplink → UplinkSound (f s.uplink)) :
      Change loads s (modUplink f s)
  | coordinatorEmptied (s : State) : Change loads s (emptied s)

/-- A sequence of changes. -/
abbrev Reach (loads : Prop) : State → State → Prop := Relation.ReflTransGen (Change loads)

variable {p : Prop}

theorem Change.reach {s t : State} (h : Change p s t) : Reach p s t := .single h

theorem QReach.reach {s t : State} (h : QReach s t) : Reach p s t := by
  induction h with
  | refl => exact .refl
  | tail _ hb ih => exact ih.tail (.quiet hb)

theorem Reach.foldl {α : Type} (f : State → α → State) (h : ∀ s a, Reach p s (f s a)) :
    ∀ (as : List α) (s : State), Reach p s (as.foldl f s)
  | [], _ => .refl
  | a :: as, s => (h s a).trans (Reach.foldl f h as (f s a))

theorem report_reach (i : Items) (s : State) : Reach p s (report i s) := (report_quiet i s).reach

theorem Reach.report {s t : State} (i : Items) (h : Reach p s t) : Reach p s (report i t) := h.trans (report_reach i t)

/-! ### Rewriting a crane context -/

/-- A rewriting that leaves mode, slots and directive alone. -/
theorem CraneChange.plain {c d : Crane} (mode : d.mode = c.mode) (active : d.active = c.active)
    (staged : d.staged = c.staged) (directive : d.directive = c.directive) : CraneChange c d where
  slots h := ⟨by rw [staged, active]; exact h.staged,
    by rw [staged]; unfold withdrawPending; rw [directive]; exact h.withdraw⟩
  sound h := by unfold ModeSound; rw [mode, directive]; exact h
  mode _ := by rw [mode]

/-- A rewriting that empties the staged slot. -/
theorem CraneChange.unstage (c : Crane) : CraneChange c { c with staged := none } where
  slots _ := ⟨by simp, fun _ => rfl⟩
  sound h := h
  mode _ := Iff.rfl

/-- A rewriting that clears the pending directive. -/
theorem CraneChange.settle (c : Crane) : CraneChange c { c with directive := none } where
  slots h := ⟨h.staged, by simp [withdrawPending]⟩
  sound _ := fun _ => rfl
  mode _ := Iff.rfl

theorem modMove_reach (n : MoveNo) (f : MoveRecord → MoveRecord) (h : ∀ r, (f r).number = r.number) (s : State) :
    Reach p s (modMove n f s) :=
  (Change.movesRewritten (fun r => if r.number = n then f r else r) s
    (fun r => by split <;> [exact h r; rfl])).reach

@[simp] theorem evaluateRecord_number (s : State) (r : MoveRecord) : (evaluateRecord s r).number = r.number :=
  (evaluateRecord_plan s r).number

theorem takeBack_reach (k : CraneNo) (s : State) : Reach p s (takeBack k s) := by
  unfold takeBack; split
  · exact .refl
  · rename_i n _
    exact (modMove_reach n _ (evaluateRecord_number s) s).tail (.craneWritten k _ _ (CraneChange.unstage _))

theorem markOverlap_reach (k : CraneNo) (s : State) : Reach p s (markOverlap k s) := by
  unfold markOverlap; split
  · exact .refl
  · exact modMove_reach _ (fun r => { r with holdOverlap := true }) (fun _ => rfl) s

/-! ### The berth -/

theorem holdState_held (s : State) : holdState s ≠ .running := by
  unfold holdState; split <;> simp

theorem testBerth_reach (who : Option CraneNo) (s : State) : Reach p s (testBerth who s) := by
  unfold testBerth; split
  · rename_i hb _
    refine Reach.report _ (Change.berthWritten (fun b => { b with state := .held }) s fun h => ?_).reach
    simpa [BerthSound, hb] using h
  · rename_i hb _
    refine Reach.report _ (Change.berthWritten (fun b => { b with state := .holding }) s fun h => ?_).reach
    simpa [BerthSound, hb] using h
  · exact .refl

theorem stopWork_reach (s : State) : Reach p s (stopWork s) := by
  unfold stopWork
  refine .trans ?_ (Reach.foldl _ (fun _ _ => (testAgreement_quiet ..).reach) _ _)
  refine .trans ?_ (Reach.foldl _ (fun _ _ => markOverlap_reach ..) _ _)
  refine .trans ?_ (releaseSlots_quiet ..).reach
  refine .trans ?_ (Reach.foldl _ (fun _ _ => takeBack_reach ..) _ _)
  exact (withdrawRequests_quiet ..).reach

theorem Causes.add_ne (c : Causes) (x : BerthCause) : (c.add x).empty = false := by
  cases x <;> simp [Causes.add, Causes.empty]

theorem enterHold_reach (c : BerthCause) (s : State) : Reach p s (enterHold c s) := by
  unfold enterHold
  refine Reach.report _ ((stopWork_reach s).tail (.berthWritten _ _ fun _ => ?_))
  simp [BerthSound, Causes.add_ne, holdState_held]

theorem addCause_reach (c : BerthCause) (s : State) : Reach p s (addCause c s) := by
  unfold addCause; split
  · exact .refl
  · split
    · exact enterHold_reach c s
    · rename_i hb
      refine Reach.report _ (Change.berthWritten (fun b => { b with causes := b.causes.add c }) s fun _ => ?_).reach
      simp [BerthSound, Causes.add_ne, hb]

theorem windReading_reach (k : CraneNo) (w : Nat) (s : State) : Reach p s (windReading k w s) := by
  have h1 : Reach p s (if par s Config.WIND_RESUME ≤ w then modBerth (fun b => { b with calmStart := some s.clock }) s
      else s) := by
    split
    · exact (Change.berthWritten (fun b => { b with calmStart := some s.clock }) s id).reach
    · exact .refl
  unfold windReading; split
  · dsimp only; split
    · exact h1.trans (addCause_reach ..)
    · exact h1
  · exact .refl

theorem releaseHold_reach (s : State) : Reach p s (releaseHold s) := by
  unfold releaseHold
  refine .trans ?_ (dispatchPass_quiet _).reach
  refine .trans ?_ (evaluateMany_quiet ..).reach
  refine Reach.report _
    (Change.berthWritten (fun b => { b with state := .running, causes := ⟨false, false, false⟩ }) s fun _ => ?_).reach
  simp [BerthSound, Causes.empty]

theorem contactChanges_reach (b : Bool) (s : State) : Reach p s (contactChanges b s) := by
  unfold contactChanges; split
  · exact .refl
  · exact (Change.berthWritten (fun x => { x with rawClosed := b, lastChange := s.clock }) s id).reach

theorem contactSettles_reach (s : State) : Reach p s (contactSettles s) := by
  have h1 : Reach p s (modBerth (fun b => { b with closed := b.rawClosed }) s) := (Change.berthWritten _ s id).reach
  unfold contactSettles; dsimp only; split
  · exact h1
  · exact h1.trans (addCause_reach ..)

/-! ### Orders -/

theorem clearAfterMove_reach (n : MoveNo) (s : State) : Reach p s (clearAfterMove n s) := by
  refine (Change.movesRewritten _ s fun r => ?_).reach
  split
  · split
    · rfl
    · rw [evaluateRecord_number]
  · rfl

theorem without_subperm (n : MoveNo) (q : List MoveRecord) :
    ((without n q).map (·.number)).Subperm (q.map (·.number)) :=
  ((List.filter_sublist (l := q)).map _).subperm

theorem freeRecord_reach (k : CraneNo) (r : MoveRecord) (s : State) : Reach p s (freeRecord k r s) := by
  unfold freeRecord
  refine .trans ?_ (queueChanged_quiet ..).reach
  refine .trans ?_ (deckPointsLost_quiet ..).reach
  refine .trans ?_ (withdrawRequests_quiet ..).reach
  refine .trans ?_ (clearAfterMove_reach ..)
  exact (Change.queueKept k _ s (without_subperm ..)).reach

theorem voidRecord_reach (k : CraneNo) (r : MoveRecord) (c : MoveCause) (s : State) :
    Reach p s (voidRecord k r c s) := by
  have h1 : Reach p s (if r.state = .staged then modCrane k (fun x => { x with staged := none }) s else s) := by
    split
    · exact (Change.craneWritten k _ s (CraneChange.unstage _)).reach
    · exact .refl
  unfold voidRecord
  refine Reach.report _ (.trans ?_ (freeRecord_reach ..))
  split
  · exact h1.trans (releaseSlot_quiet ..).reach
  · exact h1

theorem voidAndFollow_reach (k : CraneNo) (r : MoveRecord) (c : MoveCause) (s : State) :
    Reach p s (voidAndFollow k r c s) := by
  unfold voidAndFollow; dsimp only
  refine (voidRecord_reach k r c s).trans ?_
  split
  · exact QReach.reach ((testAgreement_quiet ..).trans ((evaluateMany_quiet ..).trans (dispatchPass_quiet _)))
  · exact (evaluateMany_quiet ..).reach

theorem tellRelease_reach (s0 s : State) : Reach p s (tellRelease s0 s) := (tellRelease_quiet s0 s).reach

theorem placeNew_perm (r : MoveRecord) (b : Option MoveNo) (q : List MoveRecord) : (placeNew r b q).Perm (r :: q) := by
  unfold placeNew; split
  · exact List.perm_append_singleton r q
  · split
    · exact placeBehindBusy_perm ..
    · exact placeBefore_perm ..

@[simp] theorem newRecord_number (s : State) (o : AddOrder) : (newRecord s o).number = o.number := by
  simp [newRecord]

theorem addRecord_reach (k : CraneNo) (o : AddOrder) (s : State) (h : addRefusal s k o = none) :
    Reach p s (addRecord k o s) := by
  unfold addRefusal at h
  split at h
  · cases h
  split at h
  · cases h
  split at h
  · cases h
  rename_i _ hdup hfull
  unfold addRecord; dsimp only
  refine .trans ?_ (evaluateMany_quiet ..).reach
  refine .trans ?_ (queueChanged_quiet ..).reach
  refine .trans ?_ (deckPointsGained_quiet ..).reach
  refine .trans ?_ (tellRelease_reach ..)
  refine (Change.moveAdded k (newRecord s o) _ s (placeNew_perm ..) (by simpa using hdup) ?_ ?_).reach
  · simp only [not_or, not_le] at hfull; exact hfull.1
  · simp only [not_or, not_le] at hfull; exact hfull.2

theorem modMove_const_reach (n : MoveNo) (r : MoveRecord) (h : r.number = n) (s : State) :
    Reach p s (modMove n (fun _ => r) s) :=
  (Change.movesRewritten (fun x => if x.number = n then r else x) s
    (fun x => by
      split
      · rename_i e; exact h.trans e.symm
      · rfl)).reach

theorem amendRecord_reach (k : CraneNo) (r : MoveRecord) (legs : List Leg) (s : State) :
    Reach p s (amendRecord k r legs s) := by
  unfold amendRecord; dsimp only
  refine .trans ?_ (evaluateMany_quiet ..).reach
  refine .trans ?_ (queueChanged_quiet ..).reach
  refine .trans ?_ (deckPointsLost_quiet ..).reach
  refine .trans ?_ (deckPointsGained_quiet ..).reach
  refine .trans ?_ (tellRelease_reach ..)
  exact modMove_const_reach _ _ (by simp) s

@[simp] theorem refuse_state (r : Result) (s : State) : (refuse r s).state = s := rfl
@[simp] theorem accept_state (s : State) : (accept s).state = s := rfl

theorem takeAdd_reach (k : CraneNo) (body : List Byte) (s : State) : Reach p s (takeAdd k body s).state := by
  unfold takeAdd; split
  · rw [refuse_state]
  · split
    · rw [refuse_state]
    · split
      · rw [refuse_state]
      · rename_i h; rw [accept_state]; exact addRecord_reach k _ s h

theorem takeAmend_reach (k : CraneNo) (body : List Byte) (s : State) : Reach p s (takeAmend k body s).state := by
  unfold takeAmend; split
  · split
    · rw [refuse_state]
    · split
      · rw [refuse_state]
      · split
        · rw [refuse_state]
        · rw [accept_state]; exact amendRecord_reach ..
  · rw [refuse_state]

theorem takeCancel_reach (k : CraneNo) (body : List Byte) (s : State) : Reach p s (takeCancel k body s).state := by
  unfold takeCancel; split
  · rw [refuse_state]
  · split
    · rw [refuse_state]
    · split
      · rw [refuse_state]
      · rw [accept_state]; exact voidAndFollow_reach ..

end Sys2Proof.Machine
end

