-- ==== Sys2Proof/Laws/Units.lean ====
section
/-! SUPPORT. What the directive unit, the crane cycle unit, the gangs, the lanes and the field line can do, as sequences
of changes (Laws/Change.lean). -/

namespace Sys2Proof.Machine

variable {p : Prop}

/-! ### Frames that the guards need -/

@[simp] theorem testBerth_cranes (who : Option CraneNo) (s : State) : (testBerth who s).cranes = s.cranes := by
  unfold testBerth; split <;> simp

@[simp] theorem releaseSlot_cranes (c : ReleaseCause) (s : State) (l : LaneNo) :
    (releaseSlot c s l).cranes = s.cranes := by
  unfold releaseSlot; split <;> simp [clearHold]

theorem foldl_cranes {α : Type} (f : State → α → State) (h : ∀ s a, (f s a).cranes = s.cranes) :
    ∀ (as : List α) (s : State), (as.foldl f s).cranes = s.cranes
  | [], _ => rfl
  | a :: as, s => (foldl_cranes f h as (f s a)).trans (h s a)

@[simp] theorem releaseSlots_cranes (c : ReleaseCause) (q : CraneNo → MoveRecord → Bool) (s : State) :
    (releaseSlots c q s).cranes = s.cranes := by
  refine foldl_cranes _ (fun s l => ?_) _ _
  split
  · split
    · exact releaseSlot_cranes ..
    · rfl
  · rfl

@[simp] theorem dispatchPass_cranes (s : State) : (dispatchPass s).cranes = s.cranes := (dispatchPass_lash s).cranes

/-- Reading back the crane context that was rewritten. -/
@[simp] theorem modCrane_same (k : CraneNo) (f : Crane → Crane) (s : State) :
    (modCrane k f s).cranes[k] = f s.cranes[k] := by rw [modCrane_get, if_pos rfl]

/-- After a take-back the staged slot is empty, and the rest of the crane context is as it was. -/
theorem takeBack_crane (k : CraneNo) (s : State) :
    (takeBack k s).cranes[k] = { s.cranes[k] with staged := none } := by
  unfold takeBack; split
  · rename_i h
    cases hc : s.cranes[k]; rw [hc] at h; simp only at h; rw [h]
  · rw [modCrane_same]; simp

theorem takeBackAndFollow_crane (k : CraneNo) (s : State) :
    (takeBackAndFollow k s).cranes[k].staged = none ∧ (takeBackAndFollow k s).cranes[k].mode = s.cranes[k].mode ∧
      (takeBackAndFollow k s).cranes[k].active = s.cranes[k].active := by
  unfold takeBackAndFollow; split
  · have h : (dispatchPass (testAgreement k (takeBack k s))).cranes[k] =
        { (takeBack k s).cranes[k] with jobMark := agreement (takeBack k s) k } := by
      simp only [dispatchPass_cranes, testAgreement, modCrane_same]
    rw [h, takeBack_crane]; exact ⟨rfl, rfl, rfl⟩
  · rename_i h; exact ⟨by simpa using h, rfl, rfl⟩

/-! ### Directives -/

theorem accepted_reach (k : CraneNo) (d : PendingDirective) (w : Acceptance) (s : State) :
    Reach p s (accepted k d w s) :=
  Reach.report _ (Change.craneWritten k _ s (CraneChange.settle _)).reach

/-- A WITHDRAW is accepted while its directive is pending, so the crane is in the roster. -/
theorem withdrawCrane_reach (k : CraneNo) (s : State) (h : (s.cranes[k]).directive.isSome = true) :
    Reach p s (withdrawCrane k s) := by
  unfold withdrawCrane
  refine .trans ?_ (withdrawRequests_quiet ..).reach
  refine .trans ?_ (releaseSlots_quiet ..).reach
  refine .trans ?_ (testBerth_reach ..)
  refine (Change.craneWritten k (fun c => { c with mode := .withdrawn }) s
    ⟨fun c => ⟨c.staged, c.withdraw⟩, fun _ => by simp [ModeSound], fun c => ?_⟩).reach
  · constructor
    · simp
    · intro e; rw [c e] at h; cases h

theorem testAcceptance_reach (k : CraneNo) (s : State) : Reach p s (testAcceptance k s) := by
  unfold testAcceptance; split
  · exact .refl
  · rename_i d hd
    split
    · exact .refl
    · refine .trans ?_ (accepted_reach ..)
      split
      · exact withdrawCrane_reach k s (by rw [hd]; rfl)
      · exact .refl

@[simp] theorem abandonedRecord_number (s : State) (r : MoveRecord) : (abandonedRecord s r).number = r.number := by
  simp [abandonedRecord]

/-- The crane context after an abandonment: its active slot is empty. -/
theorem abandon_crane (k : CraneNo) (n : MoveNo) (s : State) :
    (abandon k n s).cranes[k] = { s.cranes[k] with active := none } := by
  unfold abandon; dsimp only
  rw [report_cranes, testBerth_cranes, withdrawRequests_cranes, modMove_cranes]
  split
  · rw [releaseSlot_cranes, modCrane_same]
  · rw [modCrane_same]

theorem abandon_reach (k : CraneNo) (n : MoveNo) (s : State) (h : withdrawPending s.cranes[k] = true) :
    Reach p s (abandon k n s) := by
  have h1 : Reach p s (modCrane k (fun c => { c with active := none }) s) :=
    (Change.craneWritten k _ s ⟨fun c => ⟨fun e => (by rw [c.withdraw h] at e; cases e), c.withdraw⟩,
      id, fun _ => Iff.rfl⟩).reach
  unfold abandon; dsimp only
  refine Reach.report _ (.trans ?_ (testBerth_reach ..))
  refine .trans ?_ (withdrawRequests_quiet ..).reach
  refine .trans ?_ (modMove_reach _ _ (abandonedRecord_number _) _)
  split
  · exact h1.trans (releaseSlot_quiet ..).reach
  · exact h1

theorem withdrawPending_directive {c : Crane} (h : withdrawPending c = true) : c.directive.isSome = true := by
  unfold withdrawPending at h; cases hd : c.directive <;> simp_all

theorem acceptBySilence_reach (k : CraneNo) (d : PendingDirective) (s : State)
    (h : withdrawPending s.cranes[k] = true) : Reach p s (acceptBySilence k d s) := by
  have hd := withdrawPending_directive h
  unfold acceptBySilence; dsimp only
  refine .trans ?_ (accepted_reach ..)
  refine .trans ?_ (dispatchPass_quiet _).reach
  refine .trans ?_ (evaluateMany_quiet ..).reach
  refine .trans ?_ (testAgreement_quiet ..).reach
  split
  · rename_i n _
    exact (abandon_reach k n s h).trans (withdrawCrane_reach k _ (by rw [abandon_crane]; exact hd))
  · exact withdrawCrane_reach k s hd

theorem takeBackAndFollow_reach (k : CraneNo) (s : State) : Reach p s (takeBackAndFollow k s) := by
  unfold takeBackAndFollow; split
  · exact (takeBack_reach k s).trans (QReach.reach ((testAgreement_quiet ..).trans (dispatchPass_quiet _)))
  · exact .refl

/-- A directive other than WITHDRAW made pending for a crane of the roster. -/
theorem CraneChange.pend {c d : Crane} {x : PendingDirective} (hm : c.mode ≠ .absent)
    (hw : x.kind = .withdraw → d.staged = none) (mode : d.mode = c.mode) (active : d.active = c.active)
    (staged : d.staged = c.staged) (directive : d.directive = some x) : CraneChange c d where
  slots h := ⟨by rw [staged, active]; exact h.staged,
    fun e => hw (by simpa [withdrawPending, directive] using e)⟩
  sound _ := fun e => absurd (mode ▸ e) hm
  mode _ := by rw [mode]

theorem holdCrane_reach (k : CraneNo) (d : PendingDirective) (s : State) (hm : (s.cranes[k]).mode ≠ .absent)
    (hd : d.kind = .hold) : Reach p s (holdCrane k d s).state := by
  unfold holdCrane; rw [accept_state]
  refine .trans ?_ (testAcceptance_reach ..)
  refine .trans ?_ (takeBackAndFollow_reach ..)
  refine .trans ?_ (markOverlap_reach ..)
  exact (Change.craneWritten k (fun c => { c with held := true, directive := some d }) s
    (CraneChange.pend hm (by simp [hd]) rfl rfl rfl rfl)).reach

theorem resumeCrane_reach (k : CraneNo) (d : PendingDirective) (s : State) :
    Reach p s (resumeCrane k d s).state := by
  unfold resumeCrane; rw [accept_state]
  refine .trans ?_ (evaluate_quiet ..).reach
  refine .trans ?_ (accepted_reach ..)
  exact (Change.craneWritten k (fun c => { c with held := false }) s (CraneChange.plain rfl rfl rfl rfl)).reach

theorem skipMove_reach (k : CraneNo) (d : PendingDirective) (n : MoveNo) (s : State) :
    Reach p s (skipMove k d n s).state := by
  unfold skipMove; split
  · rw [refuse_state]
  · split
    · rw [refuse_state]
    · rw [accept_state]; exact (voidAndFollow_reach ..).trans (accepted_reach ..)

/-- A record put behind the busy records of its queue, out of its old place. -/
theorem promote_subperm {n : MoveNo} {r : MoveRecord} {q : List MoveRecord} (hr : r ∈ q) (hn : r.number = n) :
    ((placeBehindBusy r (without n q)).map (·.number)).Subperm (q.map (·.number)) := by
  subst hn
  exact ((SameMoves.front hr (.refl r)).perm (placeBehindBusy_perm ..)).numbers

theorem promoteMove_reach (k : CraneNo) (d : PendingDirective) (n : MoveNo) (s : State) :
    Reach p s (promoteMove k d n s).state := by
  unfold promoteMove; split
  · rw [refuse_state]
  · rename_i r hr
    split
    · rw [refuse_state]
    · dsimp only; rw [accept_state]
      refine .trans ?_ (accepted_reach ..)
      split
      · exact .refl
      · refine .trans ?_ (evaluate_quiet ..).reach
        refine .trans ?_ (queueChanged_quiet ..).reach
        exact (Change.queueKept k _ s (promote_subperm (findIn_mem hr).1 (findIn_mem hr).2)).reach

theorem withdrawDirective_reach (k : CraneNo) (d : PendingDirective) (s : State) (hm : (s.cranes[k]).mode ≠ .absent) :
    Reach p s (withdrawDirective k d s).state := by
  unfold withdrawDirective; split
  · rw [refuse_state]
  · dsimp only; rw [accept_state]
    obtain ⟨h1, h2, -⟩ := takeBackAndFollow_crane k s
    have hr : Reach p s (testAcceptance k (modCrane k (fun c => { c with directive := some d }) (takeBackAndFollow k s))) := by
      refine .trans ?_ (testAcceptance_reach ..)
      refine (takeBackAndFollow_reach k s).tail (.craneWritten k (fun c => { c with directive := some d }) _ ?_)
      exact CraneChange.pend (by rw [h2]; exact hm) (fun _ => h1) rfl rfl rfl rfl
    split
    · rename_i hs
      refine hr.trans (acceptBySilence_reach k d _ ?_)
      simp only [silenceDue, Bool.and_eq_true] at hs; exact hs.1
    · exact hr

theorem returnToService_reach (k : CraneNo) (d : PendingDirective) (s : State) :
    Reach p s (returnToService k d s).state := by
  unfold returnToService; split
  · rw [refuse_state]
  · rename_i hm
    have hm : (s.cranes[k]).mode = .withdrawn := by simpa using hm
    rw [accept_state]
    refine .trans ?_ (evaluate_quiet ..).reach
    refine .trans ?_ (accepted_reach ..)
    refine .trans ?_ (testBerth_reach ..)
    refine (Change.craneWritten k (fun c => { c with mode := .inService }) s ⟨fun c => ⟨c.staged, c.withdraw⟩,
      fun _ => by simp [ModeSound], fun _ => ?_⟩).reach
    rw [hm]; simp

theorem applyDirective_reach (k : CraneNo) (o : DirectiveOrder) (s : State) (hm : (s.cranes[k]).mode ≠ .absent) :
    Reach p s (applyDirective k o s).state := by
  unfold applyDirective; dsimp only; split
  · rename_i h; exact holdCrane_reach k _ s hm h
  · exact resumeCrane_reach ..
  · exact skipMove_reach ..
  · exact promoteMove_reach ..
  · exact withdrawDirective_reach k _ s hm
  · exact returnToService_reach ..

theorem takeDirective_reach (k : CraneNo) (body : List Byte) (s : State) :
    Reach p s (takeDirective k body s).state := by
  unfold takeDirective; split
  · rw [refuse_state]
  · rename_i hm
    split
    · rw [refuse_state]
    · split
      · rw [refuse_state]
      · exact applyDirective_reach k _ s (by simpa [inRoster] using hm)

/-! ### Crane cycles -/

theorem setCycle_eq (k : CraneNo) (c : Cycle) (s : State) :
    setCycle k c s = { s with params := s.params, cycles := s.cycles.set k c } := rfl

theorem promoteStaged_reach (k : CraneNo) (s : State) : Reach p s (promoteStaged k s) := by
  unfold promoteStaged; split
  · rename_i hs
    refine (Change.craneWritten k (fun c => { c with active := none }) s ⟨fun c => ?_, id, fun _ => Iff.rfl⟩).reach
    exact ⟨fun e => (by rw [hs] at e; cases e), c.withdraw⟩
  · rename_i n hs
    refine (modMove_reach n (activate s k) (fun _ => rfl) s).tail
      (.craneWritten k (fun c => { c with active := some n, staged := none }) _ ⟨fun _ => ?_, id, fun _ => Iff.rfl⟩)
    exact ⟨by simp, fun _ => rfl⟩

/-- A smoothed time lies within its clamp. -/
theorem clamp_le {low high v : Nat} (h : low ≤ high) : low ≤ clamp low high v ∧ clamp low high v ≤ high := by
  unfold clamp; omega

theorem measure_law (k : CraneNo) (c : Cycle) (s : State) (h : ParamLaw s)
    (hs : 16 * par s Config.CYCLE_MIN ≤ c.single ∧ c.single ≤ 16 * par s Config.CYCLE_MAX)
    (hd : 16 * par s Config.CYCLE_MIN ≤ c.dual ∧ c.dual ≤ 16 * par s Config.CYCLE_MAX) :
    ParamLaw (setCycle k c s) where
  range := h.range
  cycle := h.cycle
  wind := h.wind
  smoothed j := by
    have e : (setCycle k c s).cycles[j] = if j = k then c else s.cycles[j] := by
      simp only [setCycle_cycles, Fin.getElem_fin, Vector.getElem_set]
      by_cases h : j = k
      · subst h; simp
      · have h' : k.val ≠ j.val := fun e => h (Fin.ext e.symm)
        simp [h, h']
    rw [e]; split
    · exact ⟨hs.1, hs.2, hd.1, hd.2⟩
    · exact h.smoothed j

theorem smooth_range (s : State) (old m : Nat) (h : par s Config.CYCLE_MIN ≤ par s Config.CYCLE_MAX) :
    16 * par s Config.CYCLE_MIN ≤ smooth s old m ∧ smooth s old m ≤ 16 * par s Config.CYCLE_MAX := by
  unfold smooth; exact clamp_le (by omega)

theorem measure_reach (k : CraneNo) (r : MoveRecord) (s : State) : Reach p s (measure k r s) := by
  unfold measure; dsimp only
  refine Relation.ReflTransGen.tail (b := setCycle k _ s) ?_ (.craneWritten k
    (fun x => { x with lastCompletion := some s.clock }) _ (CraneChange.plain rfl rfl rfl rfl))
  rw [setCycle_eq]
  refine (Change.settingsWritten s.params (s.cycles.set k _) s fun h => ?_).reach
  rw [← setCycle_eq]
  have hk := h.smoothed k
  split
  · exact measure_law k _ s h ⟨hk.1, hk.2.1⟩ hk.2.2
  · split
    · exact measure_law k _ s h ⟨hk.1, hk.2.1⟩ (smooth_range s _ _ h.cycle)
    · exact measure_law k _ s h (smooth_range s _ _ h.cycle) hk.2.2

theorem complete_reach (k : CraneNo) (r : MoveRecord) (s : State) : Reach p s (complete k r s) := by
  have h1 : Reach p s (testBerth (some k) (testAcceptance k (promoteStaged k
      (report (.moveDone r.number k) (freeRecord k r (measure k r s)))))) :=
    (Reach.report _ ((measure_reach k r s).trans (freeRecord_reach ..))).trans
      ((promoteStaged_reach ..).trans ((testAcceptance_reach ..).trans (testBerth_reach ..)))
  unfold complete; dsimp only
  refine h1.trans ?_
  have h2 := fun t : State => ((testAgreement_quiet k t).trans ((evaluateMany_quiet cranes _).trans (dispatchPass_quiet _)))
  split
  · exact QReach.reach (h2 _)
  · exact QReach.reach ((h2 _).trans (callCheck_quiet ..))

theorem advance_reach (r : MoveRecord) (e : CraneEvent) (lift : Bool × Bool) (s : State) :
    Reach p s (advance r e lift s) := by
  unfold advance; split
  · rename_i e' _
    exact modMove_reach _ (fun y => { y with progress := some ⟨e', lift.1, lift.2⟩ }) (fun _ => rfl) _
  · exact .refl

theorem toLane_reach (r : MoveRecord) (e : CraneEvent) (s : State) : Reach p s (toLane r e s) := by
  unfold toLane; split
  · split
    · exact (laneEvent_quiet ..).reach
    · exact .refl
  · exact .refl

theorem applyEvent_reach (k : CraneNo) (r : MoveRecord) (l : Leg) (g : Progress) (x : CraneEventItem) (s : State) :
    Reach p s (applyEvent k r l g x s) := by
  have h1 : Reach p s (reportLeft k r.number x.event (boxesLeft l g x) s) :=
    Reach.foldl _ (fun _ _ => report_reach ..) _ _
  have h2 := (h1.trans (advance_reach r x.event (liftAfter l g x) _)).trans (toLane_reach r x.event _)
  unfold applyEvent; dsimp only
  split
  · exact h2.trans (complete_reach ..)
  · exact h2

theorem takeEvent_reach (k : CraneNo) (x : CraneEventItem) (s : State) : Reach p s (takeEvent k x s) := by
  unfold takeEvent; split
  · exact report_reach ..
  · split
    · exact applyEvent_reach ..
    · exact report_reach ..

theorem craneEvent_reach (k : CraneNo) (s : State) (x : CraneEventItem) : Reach p s (craneEvent k s x) := by
  have h1 : Reach p s (modCrane k (fun c => { c with serial := some x.serial }) s) :=
    (Change.craneWritten k _ s (CraneChange.plain rfl rfl rfl rfl)).reach
  unfold craneEvent; dsimp only; split
  · exact .refl
  · exact h1.trans (takeEvent_reach ..)
  · exact (Reach.report _ h1).trans (takeEvent_reach ..)

theorem takePosition_reach (k : CraneNo) (pos : Nat) (s : State) : Reach p s (takePosition k pos s) := by
  have h1 : Reach p s (modCrane k (fun c => { c with position := some (min pos (par s Config.QUAY_LEN)) }) s) :=
    (Change.craneWritten k _ s (CraneChange.plain rfl rfl rfl rfl)).reach
  unfold takePosition; dsimp only; split
  · exact h1.trans (evaluateMany_quiet ..).reach
  · exact h1

theorem takeWind_reach (k : CraneNo) (w : Nat) (s : State) : Reach p s (takeWind k w s) :=
  (Change.craneWritten k (fun c => { c with wind := w }) s (CraneChange.plain rfl rfl rfl rfl)).reach.trans
    (windReading_reach ..)

theorem takePhase_reach (k : CraneNo) (b : Bool) (s : State) : Reach p s (takePhase k b s) := by
  have h1 : Reach p s (modCrane k (fun c => { c with fault := b }) s) :=
    (Change.craneWritten k _ s (CraneChange.plain rfl rfl rfl rfl)).reach
  unfold takePhase; split
  · exact .refl
  · dsimp only; split
    · exact Reach.report _ h1
    · exact (Reach.report _ h1).trans (evaluate_quiet ..).reach

theorem reportUnknown_reach (k : CraneNo) (a b : Option MoveNo) (s : State) : Reach p s (reportUnknown k a b s) := by
  unfold reportUnknown; split
  · exact .refl
  · split
    · exact .refl
    · exact report_reach ..

theorem takeView_reach (k : CraneNo) (v : View) (s : State) : Reach p s (takeView k v s) := by
  unfold takeView; dsimp only
  refine .trans ?_ (testAgreement_quiet ..).reach
  refine .trans ?_ (reportUnknown_reach ..)
  refine .trans ?_ (reportUnknown_reach ..)
  exact (Change.craneWritten k (fun c => { c with view := some v }) s (CraneChange.plain rfl rfl rfl rfl)).reach

theorem answerNothing_reach (k : CraneNo) (s : State) : Reach p s (answerNothing k s) := by
  unfold answerNothing; split
  · exact (Change.craneWritten k (fun c => { c with waitMark := some (blockReason s k) }) s
      (CraneChange.plain rfl rfl rfl rfl)).reach
  · exact (Change.craneWritten k (fun c => { c with deferStart := some (c.deferStart.getD s.clock) }) s
      (CraneChange.plain rfl rfl rfl rfl)).reach

theorem takeJobWanted_reach (k : CraneNo) (w : Bool) (v : View) (s : State) : Reach p s (takeJobWanted k w v s) := by
  unfold takeJobWanted; split
  · have h1 : Reach p s (evaluate k (modCrane k (fun c => { c with jobWanted := true }) s)) :=
      (Change.craneWritten k _ s (CraneChange.plain rfl rfl rfl rfl)).reach.trans (evaluate_quiet ..).reach
    dsimp only; split
    · exact h1
    · exact h1.trans (answerNothing_reach ..)
  · exact (Change.craneWritten k (fun c => { c with jobWanted := false, deferStart := none, waitMark := none }) s
      (CraneChange.plain rfl rfl rfl rfl)).reach

theorem craneStatus_reach (k : CraneNo) (body : List Byte) (s : State) : Reach p s (craneStatus k body s) := by
  unfold craneStatus; split
  · exact report_reach ..
  · refine .trans ?_ (takeJobWanted_reach ..)
    refine .trans ?_ (takeView_reach ..)
    refine .trans ?_ (Reach.foldl _ (fun _ _ => craneEvent_reach ..) _ _)
    exact (takePosition_reach ..).trans ((takeWind_reach ..).trans (takePhase_reach ..))

theorem deferExpires_reach (k : CraneNo) (s : State) : Reach p s (deferExpires k s) := by
  have h1 : Reach p s (evaluate k (modCrane k (fun c => { c with deferStart := none }) s)) :=
    (Change.craneWritten k _ s (CraneChange.plain rfl rfl rfl rfl)).reach.trans (evaluate_quiet ..).reach
  unfold deferExpires; dsimp only; split
  · exact h1
  · exact h1.tail (.craneWritten k _ _ (CraneChange.plain rfl rfl rfl rfl))

/-! ### Gangs -/

/-- The state of gang `j` where gang `g` alone was rewritten. -/
theorem modGang_get (g j : GangNo) (f : Gang → Gang) (s : State) :
    (modGang g f s).gangs[j] = if j = g then f s.gangs[g] else s.gangs[j] := by
  simp only [modGang_gangs, Fin.getElem_fin, Vector.getElem_set]
  by_cases h : j = g
  · subst h; simp
  · have h' : g.val ≠ j.val := fun e => h (Fin.ext e.symm)
    simp [h, h']

@[simp] theorem modGang_same (g : GangNo) (f : Gang → Gang) (s : State) :
    (modGang g f s).gangs[g] = f s.gangs[g] := by rw [modGang_get, if_pos rfl]

theorem gangDone_reach (g : GangNo) (j : Job) (seen : Bool) (s : State) (h : (s.gangs[g]).state.job = some j) :
    Reach p s (gangDone g j seen s) := by
  unfold gangDone; dsimp only
  have h1 : Reach p s (report (.gang g (.done j seen)) (jobDone g j s)) := Reach.report _ (Change.done g j s h).reach
  split <;> split
  · rename_i hd; exact h1.trans (queueJob_quiet _ .lash _ _ (lashDue_deck hd)).reach
  · exact h1
  · rename_i hd; exact h1.trans (queueJob_quiet _ .unlash _ _ (unlashDue_deck hd)).reach
  · exact h1

theorem takeGangEvent_reach (g : GangNo) (x : GangEventItem) (s : State) : Reach p s (takeGangEvent g x s) := by
  unfold takeGangEvent; split
  · rename_i j hs _
    split
    · refine Reach.report _ (Change.gangWritten g (fun y => { y with state := .working j, mark := .clear }) s ?_).reach
      rw [hs]; rfl
    · exact report_reach ..
  · rename_i j hs _
    split
    · exact gangDone_reach g j _ s (by rw [hs]; rfl)
    · exact report_reach ..
  · rename_i j hs _
    split
    · exact gangDone_reach g j _ s (by rw [hs]; rfl)
    · exact report_reach ..
  · exact report_reach ..

theorem gangEvent_reach (g : GangNo) (s : State) (x : GangEventItem) : Reach p s (gangEvent g s x) := by
  have h1 : Reach p s (modGang g (fun y => { y with serial := some x.serial }) s) := (Change.gangWritten g _ s rfl).reach
  unfold gangEvent; dsimp only; split
  · exact .refl
  · exact h1.trans (takeGangEvent_reach ..)
  · exact (Reach.report _ h1).trans (takeGangEvent_reach ..)

theorem gangLeaves_reach (g : GangNo) (m : GangMark) (r : GangReport) (s : State) :
    Reach p s (gangLeaves g m r s) := by
  unfold gangLeaves
  refine Reach.report _ ?_
  split
  · rename_i j hj; exact (Change.left g j m s hj).reach
  · rename_i hj
    exact (Change.gangWritten g (fun x => { x with state := .off, mark := m }) s (by rw [hj]; rfl)).reach

theorem takeSignedOn_reach (g : GangNo) (b : Bool) (s : State) : Reach p s (takeSignedOn g b s) := by
  unfold takeSignedOn; split
  · rename_i hs
    refine Reach.report _ (Change.gangWritten g (fun x => { x with state := .idle }) s ?_).reach
    rw [hs]; rfl
  · rename_i hs
    refine Reach.report _ (Change.gangWritten g (fun x => { x with state := .off }) s ?_).reach
    rw [hs]; rfl
  · exact gangLeaves_reach ..
  · exact gangLeaves_reach ..
  · exact .refl
  · exact .refl
  · exact .refl
  · exact .refl

theorem gangFollow_quiet (g : GangNo) (s t : State) : QReach t (gangFollow g s t) := by
  unfold gangFollow; split
  · exact (tellRelease_quiet ..).trans (dispatchPass_quiet _)
  · exact .refl

theorem gangStatus_reach (g : GangNo) (body : List Byte) (s : State) : Reach p s (gangStatus g body s) := by
  unfold gangStatus; split
  · exact report_reach ..
  · exact ((Reach.foldl _ (fun _ _ => gangEvent_reach ..) _ _).trans (takeSignedOn_reach ..)).trans
      (gangFollow_quiet ..).reach

theorem cancelConfirmed_reach (g : GangNo) (b : Bool) (s : State) : Reach p s (cancelConfirmed g b s) := by
  unfold cancelConfirmed; split
  · exact (Change.gangWritten g (fun x => { x with mark := .clear }) s rfl).reach
  · exact .refl

theorem takeGangClear_reach (body : List Byte) (s : State) : Reach p s (takeGangClear body s).state := by
  unfold takeGangClear; split
  · split
    · dsimp only; split
      · rw [refuse_state]
      · rw [accept_state]
        exact (gangLeaves_reach ..).trans (QReach.reach ((tellRelease_quiet ..).trans (dispatchPass_quiet _)))
    · rw [refuse_state]
  · rw [refuse_state]

/-! ### Lanes -/

theorem modLane_reach (l : LaneNo) (f : Lane → Lane) (s : State) (h : ∀ x, LaneChange x (f x)) :
    Reach p s (modLane l f s) := (Change.laneWritten l f s (h _)).reach

theorem presenceRise_reach (l : LaneNo) (s : State) : Reach p s (presenceRise l s) := by
  unfold presenceRise; split
  · dsimp only; split
    · exact (setSlot_quiet ..).reach
    · exact Reach.report _ (setSlot_quiet ..).reach
  · exact .refl
  · exact (setSlot_quiet ..).reach
  · exact (setSlot_quiet ..).reach
  · exact .refl
  · exact .refl

theorem presenceFall_reach (l : LaneNo) (s : State) : Reach p s (presenceFall l s) := by
  unfold presenceFall; split
  · exact .refl
  · exact (setSlot_quiet ..).reach
  · exact .refl
  · exact .refl
  · exact Reach.report _ (setSlot_quiet ..).reach
  · exact (setSlot_quiet ..).reach

theorem filterLane_reach (l : LaneNo) (level : Bool) (s : State) : Reach p s (filterLane l level s) := by
  have h0 : Reach p s (modLane l
      (fun y => { y with present := level != s.lanes[l].activeLow, candidate := none }) s) :=
    modLane_reach _ _ _ fun _ => .inr ⟨rfl, rfl⟩
  unfold filterLane; dsimp only
  split
  · split
    · exact h0.trans (presenceRise_reach ..)
    · exact h0.trans (presenceFall_reach ..)
  · exact modLane_reach _ _ _ fun _ => .inr ⟨rfl, rfl⟩

theorem gateLane_reach (l : LaneNo) (level : Bool) (s : State) : Reach p s (gateLane l level s) := by
  unfold gateLane; dsimp only
  split
  · exact (filterLane_reach ..).trans (setSlot_quiet ..).reach
  · exact filterLane_reach ..

theorem gateStatus_reach (u : GateNo) (body : List Byte) (s : State) : Reach p s (gateStatus u body s) := by
  unfold gateStatus; split
  · exact report_reach ..
  · exact (gateLane_reach ..).trans (gateLane_reach ..)

theorem gateReturns_reach (u : GateNo) (s : State) : Reach p s (gateReturns u s) := by
  unfold gateReturns
  refine Relation.ReflTransGen.tail ?_ (.gateMarked ..)
  have h : ∀ x : Lane, LaneChange x { x with candidate := none } := fun _ => .inr ⟨rfl, rfl⟩
  exact (modLane_reach _ _ _ h).trans (modLane_reach _ _ _ h)

theorem handOver_reach (l : LaneNo) (q : Request) (s : State) : Reach p s (handOver l q s) := by
  have h1 : Reach p s (modLane l (fun x => { x with owner := some q.crane, request := none }) s) :=
    modLane_reach _ _ _ fun _ => .inl rfl
  unfold handOver; dsimp only; split
  · split
    · exact h1.trans (QReach.reach ((reserve_quiet ..).trans (evaluate_quiet ..)))
    · exact h1
  · exact h1

/-! ### The field line -/

theorem putOnLine_reach (t : Telegram) (s : State) : Reach p s (putOnLine t s) :=
  (Change.fieldWritten _ s fun h => ⟨h.forward, h.plan⟩).reach

theorem sendField_reach (st : Station) (kind : Byte) (body : List Byte) (s : State) :
    Reach p s (sendField st kind body s) :=
  (putOnLine_reach _ s).tail (.fieldWritten _ _ fun h => ⟨h.forward, h.plan⟩)

theorem sendPending_reach (st : Station) (s : State) : Reach p s (sendPending st s) := by
  unfold sendPending; split
  · rename_i k
    have h1 : Reach p s (if s.cranes[k].jobMark = .clear then s
        else sendField (.crane k) Config.kJoblist (joblistBody s k) s) := by
      split
      · exact .refl
      · exact sendField_reach ..
    dsimp only; split
    · exact h1
    · exact (h1.trans (sendField_reach ..)).tail (.craneWritten k _ _ (CraneChange.plain rfl rfl rfl rfl))
  · split
    · exact .refl
    · exact sendField_reach ..
  · split
    · exact (sendField_reach ..).tail (.gateMarked ..)
    · exact .refl

theorem takeEntries_length (m : Byte) : ∀ (n : Nat) (q : List Telegram), (takeEntries m n q).2.length ≤ q.length
  | 0, q => by simp [takeEntries]
  | n + 1, [] => by simp [takeEntries]
  | n + 1, t :: q => by
    have h1 := takeEntries_length m n q
    have h2 := takeEntries_length m (n + 1) q
    unfold takeEntries; split <;> simp <;> omega

theorem sendForwards_reach (st : Station) (s : State) : Reach p s (sendForwards st s) := by
  unfold sendForwards; split
  · exact .refl
  · have h := takeEntries_length st.mark 2 s.field.forward
    dsimp only
    refine Relation.ReflTransGen.trans ?_ (Reach.foldl _ (fun _ _ => putOnLine_reach ..) _ _)
    exact (Change.fieldWritten _ s fun x => ⟨h.trans x.forward, x.plan⟩).reach

theorem startVisit_reach (i : Nat) (st : Station) (s : State) : Reach p s (startVisit i st s) := by
  unfold startVisit; dsimp only
  refine .trans ?_ (sendField_reach ..)
  refine .trans ?_ (sendForwards_reach ..)
  refine .trans ?_ (sendPending_reach ..)
  exact (Change.fieldWritten _ s fun x => ⟨x.forward, x.plan⟩).reach

theorem beginVisit_reach (s : State) : Reach p s (beginVisit s) := by
  unfold beginVisit; split
  · exact .refl
  · split
    · exact startVisit_reach ..
    · exact .refl

theorem setPhase_reach (ph : VisitPhase) (s : State) : Reach p s (setPhase ph s) :=
  (Change.fieldWritten _ s fun x => ⟨x.forward, x.plan⟩).reach

theorem endVisit_reach (s : State) : Reach p s (endVisit s) :=
  (Change.fieldWritten _ s fun x => ⟨x.forward, x.plan⟩).reach

theorem tellSilent_reach (st : Station) (s : State) : Reach p s (tellSilent st s) := by
  unfold tellSilent; split
  · rename_i k
    exact (Change.craneWritten k (fun c => { c with silenceStart := some s.clock }) s
      (CraneChange.plain rfl rfl rfl rfl)).reach.trans (testBerth_reach ..)
  · exact .refl
  · exact .refl

theorem tellActive_reach (st : Station) (s : State) : Reach p s (tellActive st s) := by
  unfold tellActive; split
  · rename_i k
    exact ((Change.craneWritten k (fun c => { c with silenceStart := none }) s
      (CraneChange.plain rfl rfl rfl rfl)).reach.trans (testBerth_reach ..)).trans (evaluate_quiet ..).reach
  · split
    · exact (dispatchPass_quiet _).reach
    · exact .refl
  · exact gateReturns_reach ..

theorem miss_reach (st : Station) (s : State) : Reach p s (miss st s) := by
  unfold miss; dsimp only; split
  · rename_i h
    refine .trans (Reach.report _ (Change.stationWritten st _ s fun _ => ?_).reach) (tellSilent_reach ..)
    rw [h.1]; exact ⟨le_refl 3, by simp⟩
  · rename_i h
    refine (Change.stationWritten st _ s fun x => ?_).reach
    unfold StationSound at x ⊢
    dsimp only
    refine ⟨by omega, ?_⟩
    constructor
    · intro e; have := x.2.mp e; omega
    · intro e; by_contra hn; exact h ⟨e, hn⟩

theorem badReply_reach (st : Station) (f : FieldFault) (s : State) : Reach p s (badReply st f s) :=
  (report_reach ..).trans (miss_reach ..)

theorem stationAnswers_reach (st : Station) (s : State) : Reach p s (stationAnswers st s) := by
  have h1 : Reach p s (modStation st (fun _ => ⟨.active, 0⟩) s) :=
    (Change.stationWritten st _ s fun _ => by simp [StationSound]).reach
  unfold stationAnswers; dsimp only; split
  · exact h1
  · exact h1.trans (tellActive_reach ..)
  · exact (Reach.report _ h1).trans (tellActive_reach ..)

theorem handOff_reach (st : Station) (b : Bool) (body : List Byte) (s : State) : Reach p s (handOff st b body s) := by
  unfold handOff; split
  · exact craneStatus_reach ..
  · exact (cancelConfirmed_reach ..).trans (gangStatus_reach ..)
  · exact gateStatus_reach ..

theorem judgeComplete_reach (v : Visit) (m kind sq : Byte) (body : List Byte) (s : State) :
    Reach p s (judgeComplete v m kind sq body s) := by
  unfold judgeComplete; dsimp only; split
  · exact badReply_reach ..
  · split
    · exact report_reach ..
    · split
      · exact badReply_reach ..
      · exact (stationAnswers_reach ..).trans (handOff_reach ..)

theorem judgeReply_reach (v : Visit) (m : Byte) (e : ReplyEnd) (s : State) : Reach p s (judgeReply v m e s) := by
  unfold judgeReply; split
  · exact badReply_reach ..
  · exact badReply_reach ..
  · exact badReply_reach ..
  · exact badReply_reach ..
  · split
    · exact badReply_reach ..
    · split
      · exact badReply_reach ..
      · exact judgeComplete_reach ..

theorem forward_reach (t : Telegram) (s : State) : Reach p s (forward t s) := by
  unfold forward; split
  · rename_i h
    refine (Change.fieldWritten _ s fun x => ⟨?_, x.plan⟩).reach
    simp only [List.length_append, List.length_singleton]
    unfold Config.forwardCapacity at h; omega
  · exact report_reach ..

theorem discardForwards_reach (m : Byte) (s : State) : Reach p s (discardForwards m s) := by
  unfold discardForwards; dsimp only
  refine Relation.ReflTransGen.trans ?_ (Reach.foldl _ (fun _ _ => report_reach ..) _ _)
  exact (Change.fieldWritten _ s fun x => ⟨(List.length_filter_le _ _).trans x.forward, x.plan⟩).reach

end Sys2Proof.Machine
end

