-- ==== Sys2Proof/Laws/Commands.lean ====
section
/-! SUPPORT. What the uplink port, the router and the management unit can do, and so every command and every step: a
sequence of changes (Laws/Change.lean). `exec_reach` says it of all commands at once. -/

namespace Sys2Proof.Machine

variable {p : Prop}

/-! ### The uplink port -/

theorem modUplink_reach (f : Uplink → Uplink) (s : State) (h : UplinkSound s.uplink → UplinkSound (f s.uplink)) :
    Reach p s (modUplink f s) := (Change.uplinkWritten f s h).reach

/-- A rewriting that leaves the inbound queue and the ready output alone. -/
theorem UplinkSound.plain {u v : Uplink} (h : UplinkSound u) (inbound : v.inbound = u.inbound) (ready : v.ready = u.ready) :
    UplinkSound v :=
  ⟨by rw [inbound]; exact h.inbound, by rw [inbound, ready]; exact h.negated, by rw [inbound, ready]; exact h.asserted⟩

theorem lineFault_reach (f : LineFault) (m : Option Byte) (s : State) : Reach p s (lineFault f m s) :=
  Reach.report _ (modUplink_reach _ s fun h => h.plain rfl rfl)

theorem discard_reach (f : LineFault) (m : Byte) (s : State) : Reach p s (discard f m s) :=
  (modUplink_reach _ s fun h => h.plain rfl rfl).trans (lineFault_reach ..)

theorem offerInbound_reach (t : Telegram) (s : State) : Reach p s (offerInbound t s) := by
  unfold offerInbound; split
  · rename_i hl
    unfold Config.inboundCapacity at hl
    refine modUplink_reach _ s fun h => ⟨?_, ?_, ?_⟩
    · simp only [List.length_append, List.length_singleton]; omega
    · simp only [List.length_append, List.length_singleton, readyAfterJoin]
      intro h6; rw [if_pos h6]
    · simp only [List.length_append, List.length_singleton, readyAfterJoin]
      intro h2; rw [if_neg (by omega)]; exact h.asserted (by omega)
  · exact lineFault_reach ..

theorem telegramCompletes_reach (kind sq : Byte) (body : List Byte) (r : BitVec 16) (s : State) :
    Reach p s (telegramCompletes kind sq body r s) := by
  unfold telegramCompletes; split
  · exact .refl
  · split
    · exact (modUplink_reach _ s fun h => h.plain rfl rfl).trans (offerInbound_reach ..)
    · exact .refl

theorem telegramDiscarded_reach (c : DiscardCause) (s : State) : Reach p s (telegramDiscarded c s) := by
  unfold telegramDiscarded; split
  · exact .refl
  · split
    · exact discard_reach ..
    · split
      · exact .refl
      · exact discard_reach ..
    · split
      · exact .refl
      · exact discard_reach ..
    · split
      · exact (discard_reach ..).trans (modUplink_reach _ _ fun h => h.plain rfl rfl)
      · exact .refl
    · split
      · exact discard_reach ..
      · exact .refl

theorem gapPasses_reach (s : State) : Reach p s (gapPasses s) := by
  unfold gapPasses; split
  · exact .refl
  · exact discard_reach ..

theorem huntedCharacter_reach (c : RxChar) (s : State) : Reach p s (huntedCharacter c s) := by
  unfold huntedCharacter; split
  · exact modUplink_reach _ s fun h => h.plain rfl rfl
  · exact .refl

theorem placeResponse_reach (r : Response) (s : State) : Reach p s (placeResponse r s) := by
  refine modUplink_reach _ s fun h => ?_
  split <;> exact h.plain rfl rfl

theorem takeInHand_length (v : Nat) : ∀ q : List Report, (takeInHand q v).length = q.length
  | [] => rfl
  | r :: rs => by unfold takeInHand; split <;> simp [takeInHand_length v rs]

theorem startReport_reach (r : Report) (s : State) : Reach p s (startReport r s) :=
  (Change.reportsWritten (fun q => { q with queue := takeInHand q.queue r.level }) s
    (takeInHand_length ..).le).reach.trans (modUplink_reach _ _ fun h => h.plain rfl rfl)

theorem transmitStart_reach (s : State) : Reach p s (transmitStart s) := by
  unfold transmitStart; split
  · exact .refl
  · unfold chooseTelegram; split
    · exact modUplink_reach _ s fun h => h.plain rfl rfl
    · split
      · exact modUplink_reach _ s fun h => h.plain rfl rfl
      · split
        · exact .refl
        · split
          · exact startReport_reach ..
          · exact .refl

theorem applySettings_sound {ls : Option LineSettings} {u : Uplink} (h : UplinkSound u) :
    UplinkSound (applySettings ls u) := by
  unfold applySettings; split
  · exact h.plain rfl rfl
  · exact h

theorem responseSent_reach (s : State) : Reach p s (responseSent s) := by
  unfold responseSent; split
  · exact modUplink_reach _ s fun h => applySettings_sound (h.plain rfl rfl)
  · exact .refl

theorem reportSent_reach (s : State) : Reach p s (reportSent s) := by
  unfold reportSent; split
  · exact (Change.reportsWritten (fun q => { q with queue := q.queue.filter fun r => !r.inHand }) s
      (List.length_filter_le _ _)).reach.trans (modUplink_reach _ _ fun h => h.plain rfl rfl)
  · exact .refl

theorem breakBegins_reach (s : State) : Reach p s (breakBegins s) := by
  unfold breakBegins; split
  · exact .refl
  · exact Reach.report _ (modUplink_reach _ s fun _ => ⟨by simp, by simp, by simp⟩)

theorem breakEnds_reach (s : State) : Reach p s (breakEnds s) := modUplink_reach _ s fun h => h.plain rfl rfl

/-! ### The router -/

theorem popInbound_reach (s : State) : Reach p s (popInbound s) := by
  refine modUplink_reach _ s fun h => ⟨?_, ?_, ?_⟩
  · simp only [List.length_tail]; have := h.inbound; omega
  · simp only [List.length_tail, readyAfterLeave]
    intro h6; rw [if_neg (by omega)]; exact h.negated (by omega)
  · simp only [List.length_tail, readyAfterLeave]
    intro h2; rw [if_pos h2]

/-- The router takes a telegram by changes, if the unit that answers does. -/
theorem takeHead_reach {unit : Route → Telegram → State → Option Answer} (s : State)
    (h : ∀ r t u a, unit r t u = some a → Reach p u a.state) : Reach p s (takeHead unit s) := by
  unfold takeHead; split
  · exact .refl
  · split
    · rename_i a ha
      exact ((popInbound_reach s).trans (h _ _ _ _ ha)).trans (placeResponse_reach ..)
    · exact .refl

theorem dropHead_reach {act : Route → Telegram → State → Option State} (s : State)
    (h : ∀ r t u v, act r t u = some v → Reach p u v) : Reach p s (dropHead act s) := by
  unfold dropHead; split
  · exact .refl
  · rename_i t _
    cases hv : act (route s t) t (popInbound s) with
    | none => exact .refl
    | some v => exact (popInbound_reach s).trans (h _ _ _ _ hv)

theorem directiveFor_reach (d : DirectiveKind) (s : State) : Reach p s (takeHead (directiveFor d) s) := by
  refine takeHead_reach s fun r t u a h => ?_
  unfold directiveFor at h; split at h
  · split at h
    · cases h; exact takeDirective_reach ..
    · cases h
  · cases h

theorem managementFor_reach (kind : Byte) (act : List Byte → State → Answer) (s : State)
    (h : ∀ body u, Reach p u (act body u).state) : Reach p s (takeHead (managementFor kind act) s) := by
  refine takeHead_reach s fun r t u a ha => ?_
  unfold managementFor at ha; split at ha
  · split at ha
    · cases ha; exact h ..
    · cases ha
  · cases ha

/-! ### The management unit -/

@[simp] theorem answerData_state (d : List Byte) (s : State) : (answerData d s).state = s := rfl

theorem withEmptyBody_reach (act : State → Answer) (body : List Byte) (s : State) (h : Reach p s (act s).state) :
    Reach p s (withEmptyBody act body s).state := by
  unfold withEmptyBody; split
  · exact h
  · rw [refuse_state]

theorem within_state (n i : Nat) (read : Fin n → List Byte) (s : State) : (within n i read s).state = s := by
  unfold within; split <;> rfl

theorem readTable_state (t i : Nat) (s : State) : (readTable t i s).state = s := by
  unfold readTable; split
  · split
    · split <;> rfl
    · rfl
  all_goals first | exact within_state .. | rfl

theorem takeRead_reach (body : List Byte) (s : State) : Reach p s (takeRead body s).state := by
  unfold takeRead; split
  · rw [readTable_state]
  · rw [refuse_state]

/-! #### SET_PARAM -/

theorem paramTable_ends : ∀ i : Config.Param, Config.paramTable[i].low ≤ Config.paramTable[i].high := by decide

/-- The parameter `j` where parameter `i` alone was written. -/
theorem setParam_par (i j : Config.Param) (v : Nat) (s : State) :
    par (setParam i v s) j = if j = i then v else par s j := by
  simp only [par, setParam_params, Fin.getElem_fin, Vector.getElem_set]
  by_cases h : j = i
  · subst h; simp
  · have h' : i.val ≠ j.val := fun e => h (Fin.ext e.symm)
    simp [h, h']

/-- A value clamped by SET_PARAM stands in its parameter's range, in every state that meets the law (R174). -/
theorem clampedValue_range (s : State) (i : Config.Param) (v : Nat) (h : ParamLaw s) :
    Config.paramTable[i].low ≤ clampedValue s i v ∧ clampedValue s i v ≤ Config.paramTable[i].high := by
  have hc := clamp_le (v := v) (paramTable_ends i)
  have h1 : (300 : Nat) ≤ par s Config.CYCLE_MIN := (h.range Config.CYCLE_MIN).1
  have h2 : (par s Config.CYCLE_MIN : Nat) ≤ 1500 := (h.range Config.CYCLE_MIN).2
  have h3 : (600 : Nat) ≤ par s Config.CYCLE_MAX := (h.range Config.CYCLE_MAX).1
  have h4 : (par s Config.CYCLE_MAX : Nat) ≤ 6000 := (h.range Config.CYCLE_MAX).2
  have h5 : (50 : Nat) ≤ par s Config.WIND_STOP := (h.range Config.WIND_STOP).1
  unfold clampedValue; dsimp only
  split
  · rename_i e; subst e
    have l : Config.paramTable[Config.CYCLE_MIN].low = 300 := rfl
    omega
  · split
    · rename_i e; subst e
      have l : Config.paramTable[Config.CYCLE_MAX].high = 6000 := rfl
      omega
    · split
      · rename_i e; subst e
        have l : Config.paramTable[Config.WIND_RESUME].low = 30 := rfl
        omega
      · exact hc

/-- Writing a parameter in its range keeps the law, apart from the three that bound others. -/
theorem setParam_law (i : Config.Param) (v : Nat) (s : State) (h : ParamLaw s)
    (low : Config.paramTable[i].low ≤ v) (high : v ≤ Config.paramTable[i].high)
    (free : i ≠ Config.CYCLE_MIN ∧ i ≠ Config.CYCLE_MAX ∧ i ≠ Config.WIND_STOP)
    (wind : i = Config.WIND_RESUME → v + 10 ≤ par s Config.WIND_STOP) : ParamLaw (setParam i v s) := by
  obtain ⟨h1, h2, h3⟩ := free
  have e : ∀ j, j ≠ i → par (setParam i v s) j = par s j := fun j hj => by rw [setParam_par, if_neg hj]
  refine ⟨fun j => ?_, ?_, ?_, fun k => ?_⟩
  · rw [setParam_par]; split
    · rename_i e; subst e; exact ⟨low, high⟩
    · exact h.range j
  · rw [e _ (Ne.symm h1), e _ (Ne.symm h2)]; exact h.cycle
  · rw [e _ (Ne.symm h3), setParam_par]; split
    · rename_i e; exact wind e.symm
    · exact h.wind
  · rw [e _ (Ne.symm h1), e _ (Ne.symm h2)]; exact h.smoothed k

theorem setParam_reach (i : Config.Param) (v : Nat) (s : State) (h : ParamLaw s → ParamLaw (setParam i v s)) :
    Reach p s (setParam i v s) := (Change.settingsWritten (s.params.set i v) s.cycles s h).reach

/-- CYCLE_MIN or CYCLE_MAX written, with every smoothed time clamped (R51). -/
theorem clampCycles_law (i : Config.Param) (v : Nat) (s : State) (h : ParamLaw s)
    (hi : i = Config.CYCLE_MIN ∨ i = Config.CYCLE_MAX) :
    ParamLaw (clampCycles (setParam i (clampedValue s i v) s)) := by
  have hr := clampedValue_range s i v h
  have hc : par (setParam i (clampedValue s i v) s) Config.CYCLE_MIN ≤
      par (setParam i (clampedValue s i v) s) Config.CYCLE_MAX := by
    have hcy := h.cycle
    rcases hi with rfl | rfl
    · rw [setParam_par, setParam_par, if_pos rfl, if_neg (by decide)]
      simp only [clampedValue, if_true]; omega
    · rw [setParam_par, setParam_par, if_pos rfl, if_neg (by decide)]
      have e : (Config.CYCLE_MAX = Config.CYCLE_MIN) = False := by decide
      simp only [clampedValue, e, if_false, if_true]; omega
  refine ⟨fun j => ?_, hc, ?_, fun k => ?_⟩
  · show _ ≤ par (setParam i _ s) j ∧ par (setParam i _ s) j ≤ _
    rw [setParam_par]; split
    · rename_i e; subst e; exact hr
    · exact h.range j
  · show par (setParam i _ s) _ + 10 ≤ par (setParam i _ s) _
    rw [setParam_par, setParam_par, if_neg (by rcases hi with rfl | rfl <;> decide),
      if_neg (by rcases hi with rfl | rfl <;> decide)]
    exact h.wind
  · have b := fun v => clamp_le (v := v) (Nat.mul_le_mul_left 16 hc)
    have e : (clampCycles (setParam i (clampedValue s i v) s)).cycles[k] =
        ⟨clamp (16 * par (setParam i (clampedValue s i v) s) Config.CYCLE_MIN)
            (16 * par (setParam i (clampedValue s i v) s) Config.CYCLE_MAX) s.cycles[k].single,
          clamp (16 * par (setParam i (clampedValue s i v) s) Config.CYCLE_MIN)
            (16 * par (setParam i (clampedValue s i v) s) Config.CYCLE_MAX) s.cycles[k].dual⟩ := by
      simp [clampCycles]
    rw [e]
    exact ⟨(b _).1, (b _).2, (b _).1, (b _).2⟩

/-- WIND_STOP written, with WIND_RESUME lowered where it must be (R174). -/
theorem windStop_law (v : Nat) (s : State) (h : ParamLaw s) (low : 50 ≤ v) (high : v ≤ 400) :
    ParamLaw (setParam Config.WIND_RESUME (min (par s Config.WIND_RESUME) (v - 10)) (setParam Config.WIND_STOP v s)) := by
  have h5 : (30 : Nat) ≤ par s Config.WIND_RESUME := (h.range Config.WIND_RESUME).1
  have h6 : (par s Config.WIND_RESUME : Nat) ≤ 400 := (h.range Config.WIND_RESUME).2
  refine ⟨fun j => ?_, ?_, ?_, fun k => ?_⟩
  · rw [setParam_par]; split
    · rename_i e; subst e
      have l1 : Config.paramTable[Config.WIND_RESUME].low = 30 := rfl
      have l2 : Config.paramTable[Config.WIND_RESUME].high = 400 := rfl
      omega
    · rw [setParam_par]; split
      · rename_i e; subst e; exact ⟨low, high⟩
      · exact h.range j
  · rw [setParam_par, if_neg (by decide), setParam_par, if_neg (by decide), setParam_par, if_neg (by decide),
      setParam_par, if_neg (by decide)]
    exact h.cycle
  · rw [setParam_par, if_pos rfl, setParam_par, if_neg (by decide), setParam_par, if_pos rfl]; omega
  · rw [setParam_par, if_neg (by decide), setParam_par, if_neg (by decide), setParam_par, if_neg (by decide),
      setParam_par, if_neg (by decide)]
    exact h.smoothed k

theorem leadTests_reach (s : State) : Reach p s (leadTests s) :=
  QReach.reach (QReach.foldl _ unlashTest_quiet _ _)

theorem writeParam_reach (i : Config.Param) (v : Nat) (s : State) : Reach p s (writeParam i v s) := by
  have hr := fun h => clampedValue_range s i v h
  unfold writeParam paramEffects
  split
  · rename_i e; subst e
    refine Relation.ReflTransGen.tail (setParam_reach _ _ s fun h => ?_) (.positionsLowered _)
    exact setParam_law _ _ s h (hr h).1 (hr h).2 (by decide) (fun e => absurd e (by decide))
  · split
    · rename_i e; subst e
      have h1 : Reach p s (setParam Config.LASH_LEAD (clampedValue s Config.LASH_LEAD v) s) :=
        setParam_reach _ _ s fun h => setParam_law _ _ s h (hr h).1 (hr h).2 (by decide) (fun e => absurd e (by decide))
      split
      · exact h1
      · exact h1.trans (leadTests_reach _)
    · split
      · rename_i e
        exact (Change.settingsWritten (clampCycles (setParam i (clampedValue s i v) s)).params
          (clampCycles (setParam i (clampedValue s i v) s)).cycles s fun h => clampCycles_law i v s h e).reach
      · rename_i hc
        split
        · rename_i e; subst e
          rw [setParam_par, setParam_par, if_neg (by decide), if_pos rfl]
          refine (Change.settingsWritten _ s.cycles s fun h => ?_).reach
          exact windStop_law _ s h (hr h).1 (hr h).2
        · rename_i hs
          refine setParam_reach _ _ s fun h => setParam_law _ _ s h (hr h).1 (hr h).2
            ⟨fun e => hc (.inl e), fun e => hc (.inr e), hs⟩ fun e => ?_
          subst e
          have h5 : (50 : Nat) ≤ par s Config.WIND_STOP := (h.range Config.WIND_STOP).1
          have e1 : (Config.WIND_RESUME = Config.CYCLE_MIN) = False := by decide
          have e2 : (Config.WIND_RESUME = Config.CYCLE_MAX) = False := by decide
          simp only [clampedValue, e1, e2, if_false, if_true]; omega

theorem takeSetParam_reach (body : List Byte) (s : State) : Reach p s (takeSetParam body s).state := by
  unfold takeSetParam; split
  · split
    · dsimp only; split
      · rw [refuse_state]
      · exact writeParam_reach ..
    · rw [refuse_state]
  · rw [refuse_state]

/-! #### LOAD telegrams -/

theorem load_reach (n : Nat) (test : State → List (List Byte) → List Byte → Option Result)
    (write : List Byte → State → State) (body : List Byte) (s : State)
    (h : ∀ row u, Reach p u (write row u)) : Reach p s (load n test write body s).state := by
  unfold load; split
  · rw [refuse_state]
  · split
    · rw [refuse_state]
    · split
      · rw [refuse_state]
      · rw [accept_state]; exact Reach.foldl (fun s r => write r s) (fun u row => h row u) _ _

theorem writeBay_reach (r : List Byte) (s : State) : Reach p s (writeBay r s) := by
  unfold writeBay; split
  · exact (Change.bayWritten _ _ s).reach
  · exact .refl

theorem loadArea_reach (a : AreaNo) (d : Deck) (flag : Bool) (s : State) (h : p) :
    Reach p s (loadArea a d flag s) := by
  have h1 : Reach p s (areaLoaded a d flag s) := (Change.loaded a d flag s h).reach
  have e : loadArea a d flag s =
      if d = .opened ∧ flag = true then lashTest (areaLoaded a d flag s) a else areaLoaded a d flag s := rfl
  rw [e]; split
  · exact h1.trans (lashTest_quiet ..).reach
  · exact h1

theorem writeArea_reach (r : List Byte) (s : State) (h : p) : Reach p s (writeArea r s) := by
  unfold writeArea; split
  · split
    · exact loadArea_reach _ _ _ s h
    · exact .refl
  · exact .refl

theorem writeLane_reach (r : List Byte) (s : State) : Reach p s (writeLane r s) := by
  unfold writeLane; split
  · split
    · exact .refl
    · exact modLane_reach _ _ s fun _ => .inl rfl
  · exact .refl

theorem forgetStation_reach (k : CraneNo) (s : State) : Reach p s (forgetStation k s) :=
  (Change.stationWritten _ _ s fun _ => by simp [StationSound]).reach

theorem initialCycle_law (k : CraneNo) (s : State) (h : ParamLaw s) :
    ParamLaw (setCycle k (initialCycle s.params) s) := by
  have hb := Nat.mul_le_mul_left 16 h.cycle
  exact measure_law k _ s h (clamp_le hb) (clamp_le hb)

theorem enterCrane_reach (k : CraneNo) (e : RosterEntry) (s : State) : Reach p s (enterCrane k e s) := by
  unfold enterCrane
  refine .trans ?_ (testBerth_reach ..)
  refine .trans ?_ (forgetStation_reach ..)
  have h1 : Reach p s (modCrane k (fun _ => { Crane.powerOn with mode := .inService, position := some e.parking })
      (setRoster k (some e) s)) :=
    (Change.rosterWritten k (some e) (fun _ => { Crane.powerOn with mode := .inService, position := some e.parking }) s
      (fun _ => by simp) (fun _ => ⟨by simp [Crane.powerOn], fun _ => rfl⟩) (fun _ _ => rfl)).reach
  refine h1.trans ?_
  rw [setCycle_eq]
  exact (Change.settingsWritten _ _ _ fun h => initialCycle_law k _ h).reach

theorem replaceCrane_reach (k : CraneNo) (e : RosterEntry) (s : State) (h : inRoster s k = true) :
    Reach p s (replaceCrane k e s) := by
  have hm : (s.cranes[k]).mode ≠ .absent := by simpa [inRoster] using h
  refine (Change.rosterWritten k (some e) (fun c =>
    { c with position := if stationState s (.crane k) = .unknown then some e.parking else c.position }) s
      (fun _ => ?_) (fun c => ⟨c.staged, c.withdraw⟩) id).reach
  exact ⟨fun e => absurd e hm, fun e => by cases e⟩

theorem dropOwnership_reach (k : CraneNo) (s : State) : Reach p s (dropOwnership k s) := by
  refine (Change.lanesWritten _ s fun x => ?_).reach
  split
  · exact .inl rfl
  · cases hr : x.request with
    | none => exact .inl rfl
    | some q =>
      by_cases e : q.crane = k
      · exact .inl (by simp [Option.filter, e])
      · exact .inr ⟨by simp [Option.filter, hr, e], rfl⟩

theorem endVisitTo_reach (st : Station) (s : State) : Reach p s (endVisitTo st s) := by
  unfold endVisitTo; split
  · exact endVisit_reach s
  · exact .refl

theorem removeCrane_reach (k : CraneNo) (s : State) : Reach p s (removeCrane k s) := by
  unfold removeCrane; split
  · refine .trans ?_ (discardForwards_reach ..)
    refine .trans ?_ (testBerth_reach ..)
    refine .trans ?_ (endVisitTo_reach ..)
    refine .trans ?_ (dropOwnership_reach ..)
    refine .trans ?_ (forgetStation_reach ..)
    exact (Change.rosterWritten k none (fun _ => Crane.powerOn) s (fun _ => by simp [Crane.powerOn])
      (fun _ => ⟨by simp [Crane.powerOn], fun _ => rfl⟩) (fun _ _ => rfl)).reach
  · exact .refl

theorem writeRoster_reach (r : List Byte) (s : State) : Reach p s (writeRoster r s) := by
  unfold writeRoster; split
  · dsimp only; split
    · exact removeCrane_reach ..
    · split
      · rename_i h; exact replaceCrane_reach _ _ s h
      · exact enterCrane_reach ..
  · exact .refl

theorem takeLoadAreas_reach (body : List Byte) (s : State) (h : p) : Reach p s (takeLoadAreas body s).state :=
  (load_reach 2 areaTest writeArea body s fun row u => writeArea_reach row u h).trans (tellRelease_reach ..)

theorem takeLoadPollplan_reach (body : List Byte) (s : State) : Reach p s (takeLoadPollplan body s).state := by
  unfold takeLoadPollplan; split
  · rw [refuse_state]
  · rename_i h
    rw [accept_state]
    exact (Change.fieldWritten _ s fun x => ⟨x.forward, by unfold Config.pollCapacity at h; dsimp only; omega⟩).reach

theorem takeAckSummary_reach (body : List Byte) (s : State) : Reach p s (takeAckSummary body s).state := by
  unfold takeAckSummary; split
  · split
    · rw [refuse_state]
    · rw [accept_state]; exact (Change.reportsWritten _ s (le_refl _)).reach
  · rw [refuse_state]

theorem takeHoldBerth_reach (body : List Byte) (s : State) : Reach p s (takeHoldBerth body s).state :=
  withEmptyBody_reach _ body s (by rw [accept_state]; exact addCause_reach ..)

theorem takeReleaseBerth_reach (body : List Byte) (s : State) : Reach p s (takeReleaseBerth body s).state := by
  refine withEmptyBody_reach _ body s ?_
  split
  · rw [accept_state]
  · split
    · rw [refuse_state]
    · split
      · rw [refuse_state]
      · rw [accept_state]; exact releaseHold_reach s

theorem takeResetCoord_reach (body : List Byte) (s : State) : Reach p s (takeResetCoord body s).state :=
  withEmptyBody_reach _ body s (by rw [accept_state]; exact Reach.report _ (Change.coordinatorEmptied s).reach)

/-! ### Inputs and the field line's commands -/

theorem awake_reach (f : State → State) (s : State) (h : Reach p s (f s)) : Reach p s (awake f s) := by
  unfold awake; split
  · exact .refl
  · exact h

theorem silenceExpires_reach (k : CraneNo) (s : State) : Reach p s (silenceExpires k s) := by
  unfold silenceExpires; split
  · split
    · rename_i h
      refine acceptBySilence_reach k _ s ?_
      simp only [silenceDue, Bool.and_eq_true] at h; exact h.1
    · exact .refl
  · exact .refl

theorem handoverFalls_reach (l : LaneNo) (s : State) : Reach p s (handoverFalls l s) := by
  unfold handoverFalls; split
  · exact handOver_reach ..
  · exact .refl

theorem pollSent_reach (s : State) : Reach p s (pollSent s) := by
  unfold pollSent; split
  · split
    · exact setPhase_reach ..
    · exact .refl
    · exact .refl
  · exact .refl

theorem windowCloses_reach (s : State) : Reach p s (windowCloses s) := by
  unfold windowCloses; split
  · split
    · exact (endVisit_reach s).trans (miss_reach ..)
    · exact .refl
    · exact .refl
  · exact .refl

theorem replyBegins_reach (c : RxChar) (s : State) : Reach p s (replyBegins c s) := by
  unfold replyBegins; split
  · split
    · split
      · exact setPhase_reach ..
      · exact .refl
    · exact .refl
    · exact .refl
  · exact .refl

theorem fieldGapPasses_reach (s : State) : Reach p s (fieldGapPasses s) := by
  unfold fieldGapPasses; split
  · split
    · exact (endVisit_reach s).trans (badReply_reach ..)
    · exact .refl
    · exact .refl
  · exact .refl

theorem replyEnds_reach (e : ReplyEnd) (s : State) : Reach p s (replyEnds e s) := by
  unfold replyEnds; split
  · split
    · split
      · exact (endVisit_reach s).trans (judgeReply_reach ..)
      · exact .refl
    · exact .refl
    · exact .refl
  · exact .refl

theorem ite_reach {c : Prop} [Decidable c] {s t : State} (h : Reach p s t) : Reach p s (if c then t else s) := by
  split
  · exact h
  · exact .refl

/-! ### Every command -/

/-- Every command answers a next state, reached by changes; LOAD_AREAS alone loads areas. -/
theorem exec_reach (c : Instr) (s t : State) (h : exec c s = .next t) : Reach (c = .loadAreas) s t := by
  cases c with
  | powerOn => cases h; exact (Change.poweredOn ..).reach
  | resetAsserted => cases h; exact (Change.poweredOn ..).reach
  | resetNegated =>
    cases h; split
    · rename_i h; exact (Change.resetLeft s h).reach
    · exact .refl
  | stopContactChange b => cases h; exact contactChanges_reach ..
  | contactDebounced => cases h; exact awake_reach _ s (ite_reach (contactSettles_reach s))
  | periodicCallCheck k => cases h; exact awake_reach _ s (ite_reach (callCheck_quiet k s).reach)
  | deferTimerExpiry k => cases h; exact awake_reach _ s (ite_reach (deferExpires_reach k s))
  | silenceExpiry k => cases h; exact awake_reach _ s (silenceExpires_reach k s)
  | handover l => cases h; exact awake_reach _ s (handoverFalls_reach l s)
  | uplinkTelegramComplete kind sq body r => cases h; exact awake_reach _ s (telegramCompletes_reach ..)
  | uplinkTelegramDiscarded c => cases h; exact awake_reach _ s (telegramDiscarded_reach c s)
  | uplinkGap => cases h; exact awake_reach _ s (gapPasses_reach s)
  | breakRecognised => cases h; exact awake_reach _ s (breakBegins_reach s)
  | breakEnd => cases h; exact awake_reach _ s (breakEnds_reach s)
  | transmitStart => cases h; exact awake_reach _ s (transmitStart_reach s)
  | responseSent => cases h; exact awake_reach _ s (responseSent_reach s)
  | reportSent => cases h; exact awake_reach _ s (reportSent_reach s)
  | orderAdd =>
    cases h
    refine awake_reach _ s (takeHead_reach s fun r t u a ha => ?_)
    cases r <;> first | (cases ha; exact takeAdd_reach ..) | cases ha
  | orderAmend =>
    cases h
    refine awake_reach _ s (takeHead_reach s fun r t u a ha => ?_)
    cases r <;> first | (cases ha; exact takeAmend_reach ..) | cases ha
  | orderCancel =>
    cases h
    refine awake_reach _ s (takeHead_reach s fun r t u a ha => ?_)
    cases r <;> first | (cases ha; exact takeCancel_reach ..) | cases ha
  | hold => cases h; exact awake_reach _ s (directiveFor_reach ..)
  | resume => cases h; exact awake_reach _ s (directiveFor_reach ..)
  | skip => cases h; exact awake_reach _ s (directiveFor_reach ..)
  | promote => cases h; exact awake_reach _ s (directiveFor_reach ..)
  | withdraw => cases h; exact awake_reach _ s (directiveFor_reach ..)
  | returnCrane => cases h; exact awake_reach _ s (directiveFor_reach ..)
  | ident =>
    cases h
    exact awake_reach _ s (managementFor_reach _ _ s fun b u => withEmptyBody_reach _ b u (by rw [answerData_state]))
  | status =>
    cases h
    exact awake_reach _ s (managementFor_reach _ _ s fun b u => withEmptyBody_reach _ b u (by rw [answerData_state]))
  | read => cases h; exact awake_reach _ s (managementFor_reach _ _ s fun b u => takeRead_reach b u)
  | setParam => cases h; exact awake_reach _ s (managementFor_reach _ _ s fun b u => takeSetParam_reach b u)
  | loadRoster =>
    cases h
    exact awake_reach _ s (managementFor_reach _ _ s fun b u => load_reach _ _ _ b u fun r v => writeRoster_reach r v)
  | loadLanes =>
    cases h
    exact awake_reach _ s (managementFor_reach _ _ s fun b u => load_reach _ _ _ b u fun r v => writeLane_reach r v)
  | loadBays =>
    cases h
    exact awake_reach _ s (managementFor_reach _ _ s fun b u => load_reach _ _ _ b u fun r v => writeBay_reach r v)
  | loadAreas => cases h; exact awake_reach _ s (managementFor_reach _ _ s fun b u => takeLoadAreas_reach b u rfl)
  | loadPollplan => cases h; exact awake_reach _ s (managementFor_reach _ _ s fun b u => takeLoadPollplan_reach b u)
  | ackSummary => cases h; exact awake_reach _ s (managementFor_reach _ _ s fun b u => takeAckSummary_reach b u)
  | holdBerth => cases h; exact awake_reach _ s (managementFor_reach _ _ s fun b u => takeHoldBerth_reach b u)
  | releaseBerth => cases h; exact awake_reach _ s (managementFor_reach _ _ s fun b u => takeReleaseBerth_reach b u)
  | resetCoord => cases h; exact awake_reach _ s (managementFor_reach _ _ s fun b u => takeResetCoord_reach b u)
  | gangClear => cases h; exact awake_reach _ s (managementFor_reach _ _ s fun b u => takeGangClear_reach b u)
  | passThrough =>
    cases h
    refine awake_reach _ s (dropHead_reach s fun r t u v hv => ?_)
    cases r <;> first | (cases hv; exact forward_reach ..) | cases hv
  | routeRefusedUnknown =>
    cases h
    refine awake_reach _ s (takeHead_reach s fun r t u a ha => ?_)
    cases r <;> first | (cases ha; rw [refuse_state]) | cases ha
  | unusedMark =>
    cases h
    refine awake_reach _ s (dropHead_reach s fun r t u v hv => ?_)
    cases r <;> first | (cases hv; exact report_reach ..) | cases hv
  | visit => cases h; exact awake_reach _ s (beginVisit_reach s)
  | pollSent => cases h; exact awake_reach _ s (pollSent_reach s)
  | replyWindowClose => cases h; exact awake_reach _ s (windowCloses_reach s)
  | fieldGap => cases h; exact awake_reach _ s (fieldGapPasses_reach s)
  | fieldReplyEnd e => cases h; exact awake_reach _ s (replyEnds_reach e s)
  | uplinkMarkCharacter c => cases h; exact awake_reach _ s (huntedCharacter_reach c s)
  | replyMarkCharacter c => cases h; exact awake_reach _ s (replyBegins_reach c s)

end Sys2Proof.Machine
end

