-- ==== Sys2Proof/Laws/Reads.lean ====
section
/-! SUPPORT. Reading a row of a table after one row was written: the row written, or the old one. -/

namespace Sys2Proof.Machine

/-- Reading a vector after one place was written. -/
theorem Vector.get_set {α : Type} {n : Nat} (v : Vector α n) (i j : Fin n) (x : α) :
    (v.set i x)[j] = if j = i then x else v[j] := by
  simp only [Fin.getElem_fin, Vector.getElem_set]
  by_cases h : j = i
  · subst h; simp
  · have h' : i.val ≠ j.val := fun e => h (Fin.ext e.symm)
    simp [h, h']

variable (s : State)

theorem setCycle_get (k j : CraneNo) (c : Cycle) :
    (setCycle k c s).cycles[j] = if j = k then c else s.cycles[j] := Vector.get_set ..

theorem setRoster_get (k j : CraneNo) (e : Option RosterEntry) :
    (setRoster k e s).roster[j] = if j = k then e else s.roster[j] := Vector.get_set ..

theorem modLane_get (l j : LaneNo) (f : Lane → Lane) :
    (modLane l f s).lanes[j] = if j = l then f s.lanes[l] else s.lanes[j] := Vector.get_set ..

theorem setGateMark_get (u j : GateNo) (b : Bool) :
    (setGateMark u b s).gateMarks[j] = if j = u then b else s.gateMarks[j] := Vector.get_set ..

theorem setBay_get (i j : Fin 64) (r : Option BayRow) :
    (setBay i r s).bays[j] = if j = i then r else s.bays[j] := Vector.get_set ..

theorem modArea_get (a j : AreaNo) (f : Area → Area) :
    (modArea a f s).areas[j] = if j = a then f s.areas[a] else s.areas[j] := Vector.get_set ..

theorem modStation_get (st : Station) (j : Fin 22) (f : StationRecord → StationRecord) :
    (modStation st f s).stations[j] = if j = st.index then f s.stations[st.index] else s.stations[j] :=
  Vector.get_set ..

@[simp] theorem mapLanes_get (f : Lane → Lane) (l : LaneNo) : (mapLanes f s).lanes[l] = f s.lanes[l] := by
  simp [mapLanes]

/-- What the writing of a slot does to the lanes: the slot of one, and nothing else. -/
theorem setSlot_get (l j : LaneNo) (x : Slot) :
    (setSlot l x s).lanes[j] = if j = l then { s.lanes[l] with slot := x } else s.lanes[j] := by
  have h : (setSlot l x s).lanes = (modLane l (fun y => { y with slot := x }) s).lanes := by
    simp only [setSlot]; split
    · rfl
    · exact setGateMark_lanes ..
  simp only [h]; exact modLane_get ..

/-- What the writing of a deck state does to the areas: the deck state of one, and nothing else. -/
theorem setDeck_get (a j : AreaNo) (d : Deck) (c : AreaCause) :
    (setDeck a d c s).areas[j] = if j = a then { s.areas[a] with deck := d } else s.areas[j] := by
  unfold setDeck; simp only [reevaluate_areas, report_areas]; exact modArea_get ..

/-- What the writing of a gang present does to the areas: the gang present of one, and nothing else. -/
theorem setGangPresent_get (a j : AreaNo) (g : Option GangNo) :
    (setGangPresent a g s).areas[j] = if j = a then { s.areas[a] with gang := g } else s.areas[j] := by
  unfold setGangPresent; simp only [reevaluate_areas]; exact modArea_get ..

end Sys2Proof.Machine
end

