-- ==== Sys2Proof/Laws/WorkFrame.lean ====
section
/-! SUPPORT. Quiet steps, and so evaluations, call checks, lane rules and dispatch passes, keep within `WorkFrame`. -/

namespace Sys2Proof.Machine

theorem LaneKeeps.refl (x : Lane) : LaneKeeps x x := ⟨rfl, rfl, rfl, rfl, rfl, rfl, fun _ h => h⟩

theorem LaneKeeps.trans {x y z : Lane} (h : LaneKeeps x y) (h' : LaneKeeps y z) : LaneKeeps x z :=
  ⟨h'.use.trans h.use, h'.travel.trans h.travel, h'.activeLow.trans h.activeLow, h'.settle.trans h.settle,
    h'.present.trans h.present, h'.candidate.trans h.candidate, fun k hk => h'.owner k (h.owner k hk)⟩

theorem GangKeeps.refl (x : Gang) : GangKeeps x x := ⟨rfl, fun _ => rfl⟩

theorem GangKeeps.trans {x y z : Gang} (h : GangKeeps x y) (h' : GangKeeps y z) : GangKeeps x z :=
  ⟨h'.serial.trans h.serial, fun hx => by
    have e := h.busy hx
    rw [h'.busy (by rw [e]; exact hx), e]⟩

theorem Quiet.lane {s t : State} (h : Quiet s t) (j : LaneNo) : LaneKeeps s.lanes[j] t.lanes[j] := by
  have keep : t.lanes = s.lanes → LaneKeeps s.lanes[j] t.lanes[j] := fun e => by rw [e]; exact .refl _
  cases h with
  | slotSet l x =>
    rw [setSlot_get]; split
    · rename_i e; subst e; exact ⟨rfl, rfl, rfl, rfl, rfl, rfl, fun _ h => h⟩
    · exact .refl _
  | unrequested p =>
    unfold withdrawRequests; rw [mapLanes_get]; exact ⟨rfl, rfl, rfl, rfl, rfl, rfl, fun _ h => h⟩
  | raised k n =>
    unfold raiseRequest; split
    · exact .refl _
    · split
      · rw [modLane_get]; split
        · rename_i e; subst e; exact ⟨rfl, rfl, rfl, rfl, rfl, rfl, fun _ h => h⟩
        · exact .refl _
      · exact .refl _
  | owned k l =>
    rw [modLane_get]; split
    · rename_i e; subst e
      refine ⟨rfl, rfl, rfl, rfl, rfl, rfl, fun i hi => ?_⟩
      dsimp only; rw [hi]; simp
    · exact .refl _
  | _ => exact keep (by simp)

theorem Quiet.gang {s t : State} (h : Quiet s t) (j : GangNo) : GangKeeps s.gangs[j] t.gangs[j] := by
  have keep : t.gangs = s.gangs → GangKeeps s.gangs[j] t.gangs[j] := fun e => by rw [e]; exact .refl _
  cases h with
  | jobGiven g x _ _ hf =>
    have e : (giveJob g x s).gangs = (modGang g (fun y => { y with state := .sent x, mark := .job }) s).gangs := by
      simp [giveJob]
    simp only [e]
    rw [modGang_get]; split
    · rename_i e; subst e
      simp only [gangFree, decide_eq_true_eq] at hf
      exact ⟨rfl, fun hn => absurd hf.1 hn⟩
    · exact .refl _
  | _ => exact keep (by simp)

theorem Quiet.flag {s t : State} (h : Quiet s t) (j : AreaNo) :
    (t.areas[j]).lashRequired = (s.areas[j]).lashRequired := by
  have keep : t.areas = s.areas → (t.areas[j]).lashRequired = (s.areas[j]).lashRequired := fun e => by rw [e]
  have deck : ∀ a d c (u : State), ((setDeck a d c u).areas[j]).lashRequired = (u.areas[j]).lashRequired := by
    intro a d c u
    rw [setDeck_get]; split
    · rename_i e; rw [e]
    · rfl
  have gang : ∀ a g (u : State), ((setGangPresent a g u).areas[j]).lashRequired = (u.areas[j]).lashRequired := by
    intro a g u
    rw [setGangPresent_get]; split
    · rename_i e; rw [e]
    · rfl
  cases h with
  | jobCreated a k c => rw [deck]; simp
  | jobWithdrawn a k c => unfold withdrawJob; rw [deck]; simp
  | jobGiven g x =>
    unfold giveJob; simp only [report_areas]; rw [gang, deck]; simp
  | _ => exact keep (by simp)

theorem WorkFrame.refl (s : State) : WorkFrame s s :=
  ⟨rfl, rfl, rfl, rfl, rfl, rfl, rfl, rfl, rfl, rfl, fun _ => .refl _, fun _ => .refl _, fun _ => .refl _,
    fun _ => .refl _, fun _ => rfl⟩

theorem WorkFrame.trans {s t u : State} (h : WorkFrame s t) (h' : WorkFrame t u) : WorkFrame s u where
  pending := h'.pending.trans h.pending
  resetAsserted := h'.resetAsserted.trans h.resetAsserted
  clock := h'.clock.trans h.clock
  params := h'.params.trans h.params
  cycles := h'.cycles.trans h.cycles
  roster := h'.roster.trans h.roster
  bays := h'.bays.trans h.bays
  berth := h'.berth.trans h.berth
  stations := h'.stations.trans h.stations
  field := h'.field.trans h.field
  cranes k := (h.cranes k).trans (h'.cranes k)
  moves k := (h.moves k).trans (h'.moves k)
  lanes l := (h.lanes l).trans (h'.lanes l)
  gangs g := (h.gangs g).trans (h'.gangs g)
  flags a := (h'.flags a).trans (h.flags a)

/-- A quiet step keeps within the frame. -/
theorem Quiet.workFrame {s t : State} (h : Quiet s t) : WorkFrame s t where
  pending := h.keeps.pending
  resetAsserted := h.keeps.resetAsserted
  clock := h.keeps.clock
  params := h.keeps.params
  cycles := h.keeps.cycles
  roster := h.keeps.roster
  bays := h.keeps.bays
  berth := h.keeps.berth
  stations := h.keeps.stations
  field := h.keeps.field
  cranes := h.crane
  moves := h.moves
  lanes := h.lane
  gangs := h.gang
  flags := h.flag

/-- A sequence of quiet steps keeps within the frame. -/
theorem QReach.workFrame {s t : State} (h : QReach s t) : WorkFrame s t := by
  induction h with
  | refl => exact .refl s
  | tail _ hb ih => exact ih.trans hb.workFrame

/-- A sequence of quiet steps leaves the uplink alone. -/
theorem QReach.uplink {s t : State} (h : QReach s t) : t.uplink = s.uplink := h.keeps.uplink

end Sys2Proof.Machine
end

