-- ==== Sys2Proof/Tests/Slice0.lean ====
section
/-! SUPPORT. Tests of the model against the manual's worked figures, and the witnesses of the statements: a concrete
state and operands that meet the hypotheses of each clause. -/

namespace Sys2Proof.Tests

open Sys2Proof.Machine

/-! ### Ill-formed commands are refused -/

/-- A body one character too long. -/
def longBody : List Byte := List.replicate 121 0

theorem test_wf_refuses_long_telegram : (Instr.uplinkTelegramComplete 0x20 0 longBody 0).wf = false := by decide
theorem test_wf_refuses_short_excess_length : (Instr.uplinkTelegramDiscarded (.length 120)).wf = false := by decide
theorem test_wf_refuses_new_mark_without_mark :
    (Instr.uplinkTelegramDiscarded (.newMark ⟨0x40, false, false, true⟩)).wf = false := by decide
theorem test_wf_refuses_long_checked_body :
    (Instr.uplinkTelegramDiscarded (.check 0x20 0 longBody 0)).wf = false := by decide
theorem test_wf_refuses_short_reply_length : (Instr.fieldReplyEnd (.length 120)).wf = false := by decide
theorem test_wf_refuses_long_reply : (Instr.fieldReplyEnd (.telegram 0x50 0 longBody 0)).wf = false := by decide
theorem test_wf_refuses_uplink_data_character :
    (Instr.uplinkMarkCharacter ⟨0x40, false, false, true⟩).wf = false := by decide
theorem test_wf_refuses_field_data_character :
    (Instr.replyMarkCharacter ⟨0x40, false, false, true⟩).wf = false := by decide

/-! ### Helpers -/

/-- The part after reset, released: the contact closed, the berth RUNNING. -/
def running : State :=
  { State.reset with berth := ⟨.running, ⟨false, false, false⟩, true, 0, true, none⟩ }

/-- A telegram to the part itself. -/
def part (kind : Byte) (body : List Byte) : Telegram := ⟨0x3C, kind, 9, body⟩

/-- A telegram to crane 0. -/
def crane0 (kind : Byte) (body : List Byte) : Telegram := ⟨0x40, kind, 9, body⟩

/-- The state with one telegram in the inbound queue. -/
def inbound (t : Telegram) (s : State) : State := { s with uplink := { s.uplink with inbound := [t] } }

/-- A box of 40 feet. -/
def box : Box := ⟨List.replicate 11 0x41, .ft40, 200⟩

/-- A DISCHARGE from the hold of a bay. -/
def discharge (n : MoveNo) (bay : Nat) (st : MoveState) : MoveRecord :=
  { number := n, kind := .discharge, legs := [⟨bay, .hold, none, box, none⟩], afterMove := none, state := st, lane := none
    called := false, readyTime := some 0, activation := none, progress := none, holdOverlap := false, abandoned := false }

/-- A DISCHARGE that has become ACTIVE, and awaits event `e` with box 1 on the spreader. -/
def active (n : MoveNo) (bay : Nat) (e : CraneEvent) : MoveRecord :=
  { discharge n bay .active with activation := some 0, progress := some ⟨e, decide (e = .setL ∨ e = .setV), false⟩ }

/-- Crane 0 with a queue: IN_SERVICE, its station ACTIVE, bay 1 at position 1000 in area 0. -/
def working (q : List MoveRecord) (f : Crane → Crane) : State :=
  { running with
    queues := running.queues.set 0 q
    cranes := running.cranes.set 0 (f { Crane.powerOn with mode := .inService, position := some 100 })
    roster := running.roster.set 0 (some ⟨100, [0]⟩)
    bays := running.bays.set 0 (some ⟨1, 1000, 0⟩)
    lanes := running.lanes.set 0 { Lane.powerOn with use := .home 0, travel := 300 }
    stations := running.stations.set 0 ⟨.active, 0⟩ }

/-- Crane 0 with an ACTIVE, a STAGED and a READY move. -/
def queued : State :=
  working [active 1 1 .pickV, discharge 2 1 .staged, discharge 3 1 .ready]
    (fun c => { c with active := some 1, staged := some 2 })

/-- Crane 0 out of service. -/
def away : State := working [] (fun c => { c with mode := .withdrawn })

/-- The outcome that a command's RESPONSE carries. -/
def resultOf : Host.Outcome State Fault Refusal → Option Result
  | .next s => s.uplink.buffer.map (·.result)
  | .fault _ => none
  | .refused _ => none

/-- The next state that a command answers. -/
def nextOf : Host.Outcome State Fault Refusal → Option State
  | .next s => some s
  | .fault _ => none
  | .refused _ => none

/-! ### The manual's worked figures -/

/-- The worked check of section 10.2: kind 0x21, sequence 0, length 0. -/
theorem test_check_worked :
    crcByte 0xFFFF 0x21 = 0xD5B3 ∧ crcByte 0xD5B3 0 = 0x28D8 ∧ checkOf 0x21 0 [] = 0x7D6A := by
  refine ⟨?_, ?_, ?_⟩ <;> decide +kernel

/-- The position of a bay by its number, as TABLE 15 has them: bay b stands at position p. -/
def quay (s : State) : State :=
  { s with bays := (s.bays.set 0 (some ⟨1, 1840, 0⟩)).set 1 (some ⟨2, 2010, 0⟩) |>.set 2 (some ⟨3, 2300, 0⟩)
      |>.set 3 (some ⟨4, 2250, 0⟩) |>.set 4 (some ⟨5, 2280, 0⟩) |>.set 5 (some ⟨6, 2700, 0⟩)
      |>.set 6 (some ⟨7, 2680, 0⟩) }

/-- The cranes of TABLE 15. -/
def table15 : State :=
  let c := fun (p : Nat) => { Crane.powerOn with mode := .inService, position := some p }
  quay { running with
    queues := running.queues.set 2 [active 100 1 .pickV, discharge 101 2 .staged]
    cranes := (running.cranes.set 1 (c 900)).set 2 { c 1840 with active := some 100, staged := some 101 }
      |>.set 3 (c 2000) |>.set 4 (c 2950) |>.set 5 (c 4400) }

/-- TABLE 15: 2300 passes, 2250 fails, 2280 passes with equality, 2700 fails, 2680 passes with equality. -/
theorem test_table15_clearance :
    clearance table15 3 (discharge 1 3 .ready) = true ∧ clearance table15 3 (discharge 1 4 .ready) = false ∧
      clearance table15 3 (discharge 1 5 .ready) = true ∧ clearance table15 3 (discharge 1 6 .ready) = false ∧
      clearance table15 3 (discharge 1 7 .ready) = true := by
  refine ⟨?_, ?_, ?_, ?_, ?_⟩ <;> decide +kernel

/-- TABLE 19: the smoothing updates with a weight of 4. -/
theorem test_table19_smoothing :
    smooth State.reset 18409 1232 = 18735 ∧ smooth State.reset 18735 1100 = 18451 ∧
      smooth State.reset 48000 9000 = 48000 ∧ correction (-10) 4 = -3 ∧ correction 10 4 = 3 := by
  refine ⟨?_, ?_, ?_, ?_, ?_⟩ <;> decide +kernel

/-- TABLE 23: the sorting of event serials. -/
theorem test_table23_serials :
    sortSerial (some 250) 251 = .taken ∧ sortSerial (some 251) 251 = .duplicate ∧ sortSerial (some 251) 3 = .gap 252 ∧
      sortSerial (some 3) 200 = .duplicate ∧ sortSerial (some 3) 4 = .taken := by decide

/-- TABLE 33: a candidate of 8420 settles at 8440 with a settle time of 5, and not with one of 50. -/
theorem test_table33_filter :
    nextCandidate 8420 Lane.powerOn true = some 8420 ∧
      settles 8440 { Lane.powerOn with settle := 5, candidate := some 8420 } true = true ∧
      settles 8440 { Lane.powerOn with settle := 50, candidate := some 8420 } true = false ∧
      nextCandidate 8480 { Lane.powerOn with present := true, candidate := some 8460 } true = none := by decide

/-- TABLE 57: the ready output is negated at the sixth telegram, kept at a fill of 4, and asserted at a fill of 2. -/
theorem test_table57_ready :
    readyAfterJoin 5 true = true ∧ readyAfterJoin 6 true = false ∧ readyAfterLeave 4 false = false ∧
      readyAfterLeave 2 false = true := by decide

/-- TABLE 20: the ahead times of crane 3 at t = 10420. -/
theorem test_table20_ahead :
    let r1 := { active 301 1 .pickV with activation := some 10000 }
    let r2 := { discharge 302 1 .staged with kind := .dual }
    let r3 := { discharge 303 1 .ready with kind := .load }
    let s : State := { running with
      clock := 10420
      cycles := running.cycles.set 3 ⟨18400, 25600⟩
      queues := running.queues.set 3 [r1, r2, r3]
      cranes := running.cranes.set 3 { Crane.powerOn with active := some 301, staged := some 302 } }
    aheadTimes s 3 (remainder s 3) (horizon s 3) = [(301, 0), (302, 730), (303, 2330)] := by decide +kernel

/-- The worked SET_PARAM sequence of section 11.2. -/
theorem test_worked_set_param :
    let s := State.reset
    let s1 := writeParam Config.CYCLE_MAX 400 s
    let s2 := writeParam Config.WIND_STOP 150 s
    clampedValue s Config.CYCLE_MAX 400 = 600 ∧ clampedValue s1 Config.CYCLE_MIN 900 = 600 ∧
      par s2 Config.WIND_STOP = 150 ∧ par s2 Config.WIND_RESUME = 140 ∧
      clampedValue s2 Config.WIND_RESUME 145 = 140 := by
  refine ⟨?_, ?_, ?_, ?_, ?_⟩ <;> decide +kernel

/-! ### Witnesses: steps and laws -/

/-- A state with work in every table: an ACTIVE, a STAGED and a READY move, a request on a shared lane, a waiting job,
and a gang sent to another area. -/
def busy : State :=
  { working [active 1 1 .pickV, discharge 2 1 .staged, discharge 3 1 .ready]
      (fun c => { c with active := some 1, staged := some 2 }) with
    pending := [.periodicCallCheck 0]
    lanes := running.lanes.set 1
      { Lane.powerOn with use := .shared 0, owner := some 0, request := some ⟨1, 7⟩, slot := .worked }
    areas := (running.areas.set 0 ⟨.lashWait, true, none⟩).set 1 ⟨.unlashing, false, some 0⟩
    jobs := [⟨0, .lash⟩]
    gangs := running.gangs.set 0 ⟨.sent ⟨1, .unlash⟩, some 4, .job⟩
    stations := (running.stations.set 0 ⟨.active, 0⟩).set 1 ⟨.silent, 3⟩ }

theorem witness_EveryStepCompletes : State.reset.pending = [] := rfl

/-- The only request of `busy` stands on lane 1. -/
theorem busy_request (l : LaneNo) (q : Request) (h : (busy.lanes[l]).request = some q) : l = 1 ∧ q = ⟨1, 7⟩ := by
  have : ∀ l : LaneNo, (busy.lanes[l]).request = if l = 1 then some ⟨1, 7⟩ else none := by decide +kernel
  rw [this] at h
  split at h <;> simp_all

theorem witness_CapacityAndRangeLawsKept :
    PoolLaw busy ∧ BufferLaw busy ∧ ParamLaw busy ∧ ∃ t, step busy = .next t :=
  ⟨⟨by decide +kernel, by decide +kernel, by decide +kernel⟩,
    ⟨by decide, by decide, by decide, by decide, by decide, by decide⟩,
    ⟨by decide +kernel, by decide +kernel, by decide +kernel, by decide +kernel⟩, _, rfl⟩

theorem witness_BerthCraneAndStationLawsKept :
    BerthLaw busy ∧ CraneSlotLaw busy ∧ RequestLaw busy ∧ StationLaw busy ∧ RosterLaw busy ∧ ∃ t, step busy = .next t := by
  refine ⟨by unfold BerthLaw; decide, ⟨by decide +kernel, by decide +kernel⟩,
    ⟨fun l q h => ?_, fun l l' q q' h h' _ => ?_⟩, ?_, ⟨by decide +kernel, by decide +kernel⟩, _, rfl⟩
  · obtain ⟨rfl, rfl⟩ := busy_request l q h
    exact ⟨0, by decide +kernel, by decide⟩
  · exact (busy_request l q h).1.trans (busy_request l' q' h').1.symm
  · intro st; cases st <;> (rename_i i; revert i; decide +kernel)

theorem exists_jobKind {p : JobKind → Prop} : (∃ k, p k) ↔ p .unlash ∨ p .lash :=
  ⟨fun ⟨k, h⟩ => by cases k <;> simp [h], fun h => h.elim (fun h => ⟨_, h⟩) (fun h => ⟨_, h⟩)⟩

theorem witness_LashLawKept :
    LashLaw busy ∧ busy.pending.head? ≠ some .loadAreas ∧ ∃ t, step busy = .next t := by
  refine ⟨⟨by decide +kernel, ?_, ?_, ?_⟩, by decide, _, rfl⟩
  · intro a k; cases k <;> revert a <;> decide +kernel
  · intro a k; cases k <;> revert a <;> decide +kernel
  · simp only [exists_jobKind]; decide +kernel

/-! ### Witnesses: power, reset and the stop contact -/

/-- The part held in reset. -/
def held : State := State.powerOn [] 0 true false

theorem witness_ResetHoldsThePartAndStartsTheClock :
    held.resetAsserted = true ∧ running.resetAsserted = false ∧ Instr.visit ≠ .powerOn ∧ Instr.visit ≠ .resetAsserted ∧
      Instr.visit ≠ .resetNegated ∧ ∀ b, Instr.visit ≠ .stopContactChange b := by
  refine ⟨rfl, rfl, by decide, by decide, by decide, by decide⟩

/-- The clock and the contact as given. -/
def contact (now : Clock) (raw closed : Bool) (s : State) : State :=
  { s with clock := now, berth := { s.berth with rawClosed := raw, closed := closed } }

theorem witness_StopContactDebounced :
    let close := contact 5 true false State.reset
    let opening := contact 5 false true State.reset
    let listed : State := { opening with berth := { opening.berth with causes := ⟨true, false, false⟩ } }
    let early := contact 4 false true State.reset
    (close.resetAsserted = false ∧ close.berth.rawClosed ≠ close.berth.closed ∧
      5 ≤ age close.clock close.berth.lastChange ∧ close.berth.rawClosed = true) ∧
    (listed.berth.rawClosed = false ∧ listed.berth.rawClosed ≠ listed.berth.closed ∧
      5 ≤ age listed.clock listed.berth.lastChange ∧ listed.berth.causes.contact = true) ∧
    (opening.berth.rawClosed = false ∧ opening.berth.rawClosed ≠ opening.berth.closed ∧
      5 ≤ age opening.clock opening.berth.lastChange ∧ opening.berth.causes.contact = false ∧
      opening.berth.state ≠ .running) ∧
    (State.reset.berth.rawClosed = State.reset.berth.closed) ∧ age early.clock early.berth.lastChange < 5 := by decide

/-! ### Witnesses: telegrams to the part -/

theorem part_ready (s : State) (kind : Byte) (body : List Byte) (h1 : s.resetAsserted = false)
    (h2 : s.uplink.waiting = none) (h3 : par s Config.DEVICE_MARK = 0x3C) :
    ToPart (inbound (part kind body) s) (part kind body) kind :=
  ⟨⟨h1, h2, rfl⟩, h3.symm, rfl⟩

theorem crane0_ready (s : State) (kind : Byte) (body : List Byte) (h1 : s.resetAsserted = false)
    (h2 : s.uplink.waiting = none) (h3 : par s Config.DEVICE_MARK = 0x3C) :
    ToCrane (inbound (crane0 kind body) s) (crane0 kind body) 0 kind := by
  refine ⟨⟨h1, h2, rfl⟩, rfl, ?_, rfl⟩
  show (0x40 : Byte).toNat ≠ par s Config.DEVICE_MARK
  rw [h3]; decide

theorem witness_BerthHoldsEntered :
    let t := part Config.kHoldBerth
    let s := inbound (t []) State.reset
    let windy := inbound (t []) { State.reset with berth := { State.reset.berth with causes := ⟨false, true, false⟩ } }
    let r := inbound (t []) running
    let opened := contact 5 false true running
    (ToPart (inbound (t [0]) running) (t [0]) Config.kHoldBerth ∧ (t [0]).body ≠ []) ∧
    (ToPart s (t []) Config.kHoldBerth ∧ (t []).body = [] ∧ s.berth.causes.command = true) ∧
    (ToPart windy (t []) Config.kHoldBerth ∧ windy.berth.causes.command = false ∧ windy.berth.state ≠ .running) ∧
    (ToPart r (t []) Config.kHoldBerth ∧ r.berth.causes = ⟨false, false, false⟩ ∧ r.berth.state = .running) ∧
    (opened.resetAsserted = false ∧ opened.berth.closed = true ∧ opened.berth.rawClosed = false ∧
      5 ≤ age opened.clock opened.berth.lastChange ∧ opened.berth.state = .running ∧
      opened.berth.causes = ⟨false, false, false⟩) :=
  ⟨⟨part_ready _ _ _ rfl rfl rfl, by decide⟩, ⟨part_ready _ _ _ rfl rfl rfl, rfl, rfl⟩,
    ⟨part_ready _ _ _ rfl rfl rfl, rfl, by decide⟩, ⟨part_ready _ _ _ rfl rfl rfl, rfl, rfl⟩, by decide⟩

/-- A held berth with its contact closed and its calm timer started at 0. -/
def windHeld (now : Clock) : State :=
  { State.reset with clock := now, berth := ⟨.held, ⟨false, true, false⟩, true, 0, true, some 0⟩ }

theorem witness_ReleaseBerthTested :
    let t := part Config.kReleaseBerth []
    (ToPart (inbound (part Config.kReleaseBerth [0]) running) (part Config.kReleaseBerth [0]) Config.kReleaseBerth) ∧
    (ToPart (inbound t running) t Config.kReleaseBerth ∧ t.body = [] ∧ (inbound t running).berth.state = .running) ∧
    (ToPart (inbound t State.reset) t Config.kReleaseBerth ∧ State.reset.berth.state ≠ .running ∧
      State.reset.berth.closed = false) ∧
    (ToPart (inbound t (windHeld 2999)) t Config.kReleaseBerth ∧ (windHeld 2999).berth.closed = true ∧
      ∃ c, (windHeld 2999).berth.calmStart = some c ∧ age (windHeld 2999).clock c < par (windHeld 2999) Config.CALM_INTERVAL) ∧
    (ToPart (inbound t (windHeld 3000)) t Config.kReleaseBerth ∧ (windHeld 3000).berth.closed = true ∧
      ∀ c, (windHeld 3000).berth.calmStart = some c →
        par (windHeld 3000) Config.CALM_INTERVAL ≤ age (windHeld 3000).clock c) ∧
    (∀ k : CraneNo, releaseCondition { inbound t (windHeld 3000) with
      berth := { (windHeld 3000).berth with state := .running, causes := ⟨false, false, false⟩ } } k = false) ∧
    (windHeld 3000).jobs = [] := by
  refine ⟨part_ready _ _ _ rfl rfl rfl, ⟨part_ready _ _ _ rfl rfl rfl, rfl, rfl⟩,
    ⟨part_ready _ _ _ rfl rfl rfl, by decide, rfl⟩, ⟨part_ready _ _ _ rfl rfl rfl, rfl, 0, rfl, by decide +kernel⟩, ⟨part_ready _ _ _ rfl rfl rfl, rfl, ?_⟩, by decide +kernel, rfl⟩
  intro c h
  cases h
  decide +kernel

theorem witness_ReleaseOnlyUnderTheCondition :
    releaseCondition (working [] id) 0 = true ∧ releaseCondition State.reset 0 = false := by
  constructor <;> decide +kernel

theorem witness_SmoothingMovesTowardsTheMeasurement :
    1 ≤ par State.reset Config.SMOOTH_WEIGHT ∧ par State.reset Config.SMOOTH_WEIGHT ≤ 16 ∧
      par State.reset Config.CYCLE_MIN ≤ par State.reset Config.CYCLE_MAX ∧
      16 * par State.reset Config.CYCLE_MIN ≤ 48000 ∧ 48000 ≤ 16 * par State.reset Config.CYCLE_MAX := by
  refine ⟨?_, ?_, ?_, ?_, ?_⟩ <;> decide +kernel

/-! ### Witnesses: the release search and the call check -/

theorem finds_home (s : State) (h1 : (s.lanes[(0 : LaneNo)]).slot = .free false) (h2 : (s.lanes[(0 : LaneNo)]).use = .home 0)
    (h3 : s.roster[(0 : CraneNo)] = some ⟨100, [0]⟩) : FindsLane s 0 0 :=
  .inl ⟨⟨h1, h2, _, h3, by decide⟩, fun m h => absurd h (by simp)⟩

/-- Crane 0 with no home lane; lane 0 is shared with crane 1 and has this owner. -/
def sharing (owner : Option CraneNo) (q : List MoveRecord) (f : Crane → Crane) : State :=
  let s := working q f
  { s with
    roster := s.roster.set 0 (some ⟨100, []⟩)
    lanes := s.lanes.set 0 { Lane.powerOn with use := .shared 0, owner := owner } }

theorem sharing_home (owner : Option CraneNo) (q : List MoveRecord) (f : Crane → Crane) (m : LaneNo) :
    ¬HomeOpen (sharing owner q f) 0 m := fun ⟨_, _, e, he, hm⟩ => by
  cases (show some (⟨100, []⟩ : RosterEntry) = some e from he)
  cases hm

theorem sharing_finds (q : List MoveRecord) (f : Crane → Crane) : FindsLane (sharing none q f) 0 0 :=
  .inr ⟨⟨rfl, ⟨0, rfl, .inl rfl⟩, .inl rfl⟩, sharing_home _ _ _, fun m h => absurd h (by simp)⟩

theorem sharing_owned (q : List MoveRecord) (f : Crane → Crane) (m : LaneNo) : ¬FindsLane (sharing (some 1) q f) 0 m := by
  have lanes : ∀ m : LaneNo, (∃ j : Fin 7, ((sharing (some 1) [] id).lanes[m]).use = .shared j) →
      ((sharing (some 1) [] id).lanes[m]).owner = some 1 := by decide +kernel
  rintro (⟨h, -⟩ | ⟨⟨-, ⟨j, hj, -⟩, ho⟩, -⟩)
  · exact sharing_home _ _ _ m h
  · have : ((sharing (some 1) q f).lanes[m]).owner = some 1 := lanes m ⟨j, hj⟩
    rcases ho with h | ⟨h, -⟩ <;> rw [this] at h <;> cases h

/-- Two DISCHARGEs, the second READY. -/
def ready2 (st : MoveState) : List MoveRecord := [discharge 3 1 st, discharge 4 1 .ready]

theorem sharing_no_request (q : List MoveRecord) : ¬HasStanding (sharing (some 1) q id) 0 := fun ⟨l, x, h, _⟩ => by
  have : ∀ l : LaneNo, ((sharing (some 1) [] id).lanes[l]).request = none := by decide +kernel
  rw [show ((sharing (some 1) q id).lanes[l]).request = none from this l] at h
  cases h

theorem pending_seeks_none : ∀ x ∈ [discharge 3 1 .pending], ¬SeeksLane x := fun x hx h => by
  cases List.mem_singleton.1 hx
  exact absurd h.1 (by decide)

theorem witness_CandidateSearchReleasesTheFirst :
    let filled : Crane → Crane := fun c => { c with active := some 1 }
    (windowOf (working [] id) 0 = [] ∧
      (windowOf (sharing (some 1) (ready2 .pending) id) 0 = ready2 .pending ∧ ∀ m, ¬FindsLane (sharing (some 1) (ready2 .pending) id) 0 m) ∧
      (∃ j, ((sharing (some 1) (ready2 .pending) id).lanes[(0 : LaneNo)]).owner = some j ∧ j ≠ 0) ∧
      SharedBy (sharing (some 1) (ready2 .pending) id) 0 0) ∧
    (windowOf (working (ready2 .pending) id) 0 = [discharge 3 1 .pending] ++ discharge 4 1 .ready :: [] ∧
      (discharge 3 1 .pending).state ≠ .ready ∧ (discharge 4 1 .ready).state = .ready ∧
      FindsLane (working (ready2 .pending) id) 0 0 ∧ clearance (working (ready2 .pending) id) 0 (discharge 4 1 .ready) = true ∧
      (((working (ready2 .pending) id).queues[(0 : CraneNo)]).map (·.number)).Nodup ∧
      ((working (ready2 .pending) id).cranes[(0 : CraneNo)]).active = none) ∧
    (let s := sharing none (active 1 1 .pickV :: ready2 .ready) filled;
      windowOf s 0 = [] ++ discharge 3 1 .ready :: [discharge 4 1 .ready] ∧ FindsLane s 0 0 ∧ SharedBy s 0 0 ∧
        (s.lanes[(0 : LaneNo)]).owner = none ∧ clearance s 0 (discharge 3 1 .ready) = true ∧
        ((s.queues[(0 : CraneNo)]).map (·.number)).Nodup ∧ (s.cranes[(0 : CraneNo)]).active.isSome) ∧
    releaseCondition (working [] id) 0 = true ∧
    (let s := sharing (some 1) (ready2 .pending) id;
      (∀ x ∈ [discharge 3 1 .pending], ¬SeeksLane x) ∧ SeeksLane (discharge 4 1 .ready) ∧ ¬HasStanding s 0 ∧
        OwnedByOther s 0 0 ∧ ∀ m < (0 : LaneNo), ¬OwnedByOther s 0 m) ∧
    (((working (ready2 .pending) id).cranes[(0 : CraneNo)]).active = none ∧
      ((evaluateOnce 0 (working (ready2 .pending) id)).cranes[(0 : CraneNo)]).active.isSome ∧
      ((evaluateOnce 0 (working [] id)).cranes[(0 : CraneNo)]).active = none) := by
  refine ⟨⟨?_, ⟨?_, sharing_owned _ _⟩, ⟨1, rfl, by decide⟩, 0, rfl, .inl rfl⟩, ⟨?_, ?_, ?_, finds_home _ rfl rfl rfl, ?_, ?_, ?_⟩,
    ⟨?_, sharing_finds _ _, ⟨0, rfl, .inl rfl⟩, ?_, ?_, ?_, ?_⟩, ?_,
    ⟨pending_seeks_none, ⟨rfl, by decide, rfl⟩, sharing_no_request _, ⟨⟨0, rfl, .inl rfl⟩, 1, rfl, by decide⟩,
      fun m h => absurd h (by simp)⟩, ?_⟩ <;> decide +kernel

/-- A DISCHARGE from the deck of a bay. -/
def deckMove (n : MoveNo) (bay : Nat) (st : MoveState) : MoveRecord :=
  { discharge n bay st with legs := [⟨bay, .deck, none, box, none⟩] }

/-- The bay map of `working` has bay 1 alone, in area 0. -/
theorem working_bay (q : List MoveRecord) (f : Crane → Crane) (n : Nat) (x : BayRow) (h : BayAt (working q f) n x) :
    x = ⟨1, 1000, 0⟩ := by
  obtain ⟨i, hi, -⟩ := h
  have : ∀ i : Fin 64, (working [] id).bays[i] = if i = 0 then some ⟨1, 1000, 0⟩ else none := by decide +kernel
  rw [show (working q f).bays[i] = _ from this i] at hi
  split at hi <;> cases hi
  rfl

theorem working_bay_one (q : List MoveRecord) (f : Crane → Crane) : BayAt (working q f) 1 ⟨1, 1000, 0⟩ :=
  ⟨0, rfl, rfl, fun j h => absurd h (by simp)⟩

theorem deck_touches (n : MoveNo) (st : MoveState) : Touches (deckMove n 1 st) 1 .deck :=
  ⟨_, List.mem_singleton.2 rfl, .inl ⟨rfl, rfl⟩⟩

theorem hold_touches_no_deck (n : MoveNo) (st : MoveState) (b : Nat) : ¬Touches (discharge n 1 st) b .deck := by
  rintro ⟨l, hl, ⟨-, h⟩ | ⟨d, h, -⟩⟩ <;> cases List.mem_singleton.1 hl <;> cases h

/-- Crane 0 with one move in its queue. -/
def blocked (r : MoveRecord) : State := working [r] id

theorem witness_AgreementAndBlockingReason :
    let seen : View → State := fun v => working [discharge 3 1 .ready] (fun c => { c with view := some v, active := some 3 })
    (((blocked (discharge 3 1 .ready)).cranes[(0 : CraneNo)]).view = none) ∧
    ((3 : MoveNo) ∈ (pool (seen ⟨some 9, none⟩)).map (·.number) ∧ (9 : MoveNo) ∉ (pool (seen ⟨some 9, none⟩)).map (·.number)) ∧
    (((seen ⟨some 3, none⟩).cranes[(0 : CraneNo)]).active = some 3 ∧ ((seen ⟨none, none⟩).cranes[(0 : CraneNo)]).active ≠ none) ∧
    (windowOf (working [] id) 0 = [] ∧ ∀ r ∈ [discharge 3 1 .ready, discharge 3 1 .pending, deckMove 3 1 .pending,
      { deckMove 3 1 .pending with afterMove := some 7 }], windowOf (blocked r) 0 = [r]) ∧
    (let c := (blocked (discharge 3 1 .pending)).cranes[(0 : CraneNo)];
      c.mode = .inService ∧ c.held = false ∧ c.directive = none ∧ c.fault = false ∧
        stationState (blocked (discharge 3 1 .pending)) (.crane 0) = .active ∧
        (blocked (discharge 3 1 .pending)).berth.state = .running) ∧
    ((away.cranes[(0 : CraneNo)]).mode ≠ .inService) ∧
    ((∃ n, Touches (deckMove 3 1 .pending) n .deck ∧
        ∀ x, BayAt (blocked (deckMove 3 1 .pending)) n x → ((blocked (deckMove 3 1 .pending)).areas[x.area]).deck ≠ .opened) ∧
      ∀ n, ¬Touches (discharge 3 1 .pending) n .deck) ∧
    (let s : State := { blocked (discharge 3 1 .pending) with areas := running.areas.set 0 ⟨.unlashing, false, some 0⟩ };
      windowOf s 0 = [discharge 3 1 .pending] ∧ PointIn s (discharge 3 1 .pending) 0 ∧ (s.areas[(0 : AreaNo)]).gang ≠ none) ∧
    ((∀ l, ¬FindsLane (sharing (some 1) [discharge 3 1 .ready] id) 0 l) ∧ FindsLane (blocked (discharge 3 1 .ready)) 0 0) := by
  refine ⟨rfl, ?_, ?_, ⟨rfl, ?_⟩, ?_, ?_, ⟨⟨1, deck_touches _ _, fun x h => ?_⟩, hold_touches_no_deck _ _⟩,
    ⟨by decide +kernel, ⟨1, .hold, ⟨1, 1000, 0⟩, ⟨_, List.mem_singleton.2 rfl, .inl ⟨rfl, rfl⟩⟩, ⟨0, rfl, rfl, ?_⟩, rfl⟩, by decide +kernel⟩,
    sharing_owned _ _, finds_home _ rfl rfl rfl⟩
  · decide +kernel
  · decide +kernel
  · decide +kernel
  · decide +kernel
  · decide +kernel
  · rw [working_bay _ _ _ _ h]; decide +kernel
  · exact fun j h => absurd h (by simp)

theorem witness_CallCheckTakesTheHorizon :
    let load := { discharge 5 1 .ready with kind := .load }
    let restow := { discharge 6 1 .ready with kind := .restow }
    let act := active 1 1 .pickV
    let filled : Crane → Crane := fun c => { c with active := some 1 }
    let s : State := { working [act, load, restow, { discharge 7 1 .ready with lane := some 0 }] filled with clock := 10 }
    let called : State := { working [{ act with lane := some 0 }] filled with
      clock := 10, lanes := running.lanes.set 0 { Lane.powerOn with use := .home 0, slot := .reserved 1 } }
    let asked := sharing (some 1) [load] id
    let stands : State := { asked with lanes := asked.lanes.set 0 { asked.lanes[0] with request := some ⟨0, 5⟩ } }
    (((working [] id).cranes[(0 : CraneNo)]).active = none ∧ (s.cranes[(0 : CraneNo)]).active = some 1 ∧
      findIn s 0 1 = some act ∧ act.activation = some 0) ∧
    (horizonOf s 0 = [act] ++ load :: [restow]) ∧
    (findIn s 0 6 = some restow ∧ ¬NeedsLane restow) ∧
    (findIn s 0 7 = some { discharge 7 1 .ready with lane := some 0 } ∧ NeedsLane { discharge 7 1 .ready with lane := some 0 }) ∧
    (findIn s 0 5 = some load ∧ NeedsLane load ∧ load.lane = none ∧ FindsLane s 0 0) ∧
    (findIn asked 0 5 = some load ∧ (∀ l, ¬FindsLane asked 0 l) ∧ (SharedBy asked 0 0 ∧ (asked.lanes[(0 : LaneNo)]).owner = some 1) ∧
      ∀ l : LaneNo, (asked.lanes[l]).request = none) ∧
    (findIn stands 0 5 = some load ∧ (stands.lanes[(0 : LaneNo)]).request = some ⟨0, 5⟩) ∧
    (findIn called 0 1 = some { act with lane := some 0 } ∧ (called.lanes[(0 : LaneNo)]).slot = .reserved 1) ∧
    (running.resetAsserted = false ∧ running.clock = 0) ∧
    (s.resetAsserted = false ∧ s.clock ≠ 0 ∧ s.clock.toNat % 10 = 0 ∧ (s.cranes[(0 : CraneNo)]).mode = .inService ∧
      stationState s (.crane 0) ≠ .silent ∧ s.berth.state = .running) ∧
    (let after := fun s : State => (aheadTimes s 0 (remainder s 0) (horizonOf s 0)).foldl
        (fun x m => checkCall 0 m.1 m.2 (checkReserve 0 m.1 x)) (withoutStale 0 s);
      (∃ r ∈ s.queues[(0 : CraneNo)], r.lane = none ∧ ∃ r' ∈ (after s).queues[(0 : CraneNo)], r'.number = r.number ∧ r'.lane.isSome) ∧
      ∀ r ∈ called.queues[(0 : CraneNo)], r.lane = none →
        ∀ r' ∈ (after called).queues[(0 : CraneNo)], r'.number = r.number → r'.lane = none) := by
  refine ⟨?_, ?_, ⟨?_, id⟩, ⟨?_, trivial⟩, ⟨?_, .inl (by decide), rfl, finds_home _ rfl rfl rfl⟩,
    ⟨?_, sharing_owned _ _, ⟨⟨0, rfl, .inl rfl⟩, rfl⟩, ?_⟩, ?_, ?_, ⟨rfl, rfl⟩, ?_, ?_, ?_⟩ <;> decide +kernel

/-! ### Witnesses: clocked events and lanes -/

theorem witness_PeriodicCallCheckCalls :
    let r := { active 1 1 .pickV with lane := some 0 }
    let s0 := working [r] (fun c => { c with active := some 1 })
    let s : State := { s0 with
      clock := 10
      lanes := s0.lanes.set 0 { s0.lanes[0] with slot := .reserved 1 } }
    let idle : State := { State.reset with clock := 10 }
    (idle.resetAsserted = false ∧ idle.clock ≠ 0 ∧ idle.clock.toNat % 10 = 0 ∧
      ¬((idle.cranes[(0 : CraneNo)]).mode = .inService ∧ stationState idle (.crane 0) ≠ .silent ∧ idle.berth.state = .running)) ∧
    (s.resetAsserted = false ∧ s.clock ≠ 0 ∧ s.clock.toNat % 10 = 0) ∧
    ((s.cranes[(0 : CraneNo)]).mode = .inService ∧ stationState s (.crane 0) ≠ .silent ∧ s.berth.state = .running) ∧
    (s.queues[(0 : CraneNo)] = [r] ∧ r.state = .active ∧ laneNeed r = true ∧ r.lane = some 0) ∧
    ((s.lanes[(0 : LaneNo)]).slot = .reserved r.number ∧ (s.lanes[(0 : LaneNo)]).use ≠ .unused) ∧
    1 ≤ par s Config.CALL_DEPTH ∧ ∀ l : LaneNo, (s.lanes[l]).request = none := by
  refine ⟨?_, ?_, ?_, ?_, ?_, ?_, ?_⟩ <;> decide +kernel

theorem witness_DeferTimerExpires :
    let s : Clock → Option MoveNo → State := fun now a =>
      { running with
        clock := now
        cranes := running.cranes.set 0 { Crane.powerOn with deferStart := some 0, active := a } }
    ((s 50 none).resetAsserted = false ∧ ((s 50 none).cranes[(0 : CraneNo)]).deferStart = some 0 ∧
      par (s 50 none) Config.DEFER_LIMIT ≤ age (s 50 none).clock 0 ∧ releaseCondition (s 50 none) 0 = false ∧
      ((s 50 none).cranes[(0 : CraneNo)]).active = none) ∧
    (((s 50 (some 4)).cranes[(0 : CraneNo)]).active.isSome ∧ releaseCondition (s 50 (some 4)) 0 = false ∧
      ((s 50 (some 4)).cranes[(0 : CraneNo)]).deferStart = some 0 ∧
      par (s 50 (some 4)) Config.DEFER_LIMIT ≤ age (s 50 (some 4)).clock 0) ∧
    (((s 49 none).cranes[(0 : CraneNo)]).deferStart = some 0 ∧ age (s 49 none).clock 0 < par (s 49 none) Config.DEFER_LIMIT) := by
  refine ⟨?_, ?_, ?_⟩ <;> decide +kernel

theorem witness_HandoverPassesOwnership :
    let r := discharge 3 1 .pending
    let s0 := working [r] (fun c => { c with held := true })
    let s : MoveNo → State := fun m =>
      { s0 with lanes := s0.lanes.set 5 { Lane.powerOn with use := .shared 0, owner := some 1, request := some ⟨0, m⟩ } }
    ((s 3).resetAsserted = false ∧ ((s 3).lanes[(5 : LaneNo)]).slot = .free false ∧
      ((s 3).lanes[(5 : LaneNo)]).request = some ⟨0, 3⟩ ∧ findIn (s 3) 0 3 = some r ∧ r.lane = none ∧
      NeedsLane r ∧ releaseCondition (s 3) 0 = false) ∧
    (((s 4).lanes[(5 : LaneNo)]).request = some ⟨0, 4⟩ ∧ findIn (s 4) 0 4 = none) ∧
    (((s 3).lanes[(0 : LaneNo)]).request = none) := by
  refine ⟨⟨?_, ?_, ?_, ?_, ?_, trivial, ?_⟩, ?_, ?_⟩ <;> decide +kernel

theorem witness_PresenceActsOnSlot :
    let lane : Slot → State := fun x => { running with lanes := running.lanes.set 3 { Lane.powerOn with slot := x } }
    ((lane (.free false)).lanes[(3 : LaneNo)]).slot = .free false ∧ ((lane (.free true)).lanes[(3 : LaneNo)]).slot = .free true ∧
      ((lane (.reserved 1)).lanes[(3 : LaneNo)]).slot = .reserved 1 ∧ ((lane (.called 1)).lanes[(3 : LaneNo)]).slot = .called 1 ∧
      ((lane (.arrived 1)).lanes[(3 : LaneNo)]).slot = .arrived 1 ∧ ((lane .worked).lanes[(3 : LaneNo)]).slot = .worked := by
  refine ⟨?_, ?_, ?_, ?_, ?_, ?_⟩ <;> decide +kernel

theorem witness_PresenceFilterSettles :
    ((0 : LaneNo).val = 2 * (0 : GateNo).val ∧ (1 : LaneNo).val = 2 * (0 : GateNo).val + 1) ∧
    ([1, 0] : List Byte) = [if true then 1 else 0, if false then 1 else 0] ∧
    ∀ a b : Bool, ([2, 0] : List Byte) ≠ [if a then 1 else 0, if b then 1 else 0] := by decide

theorem witness_SlotReleasedByItsState :
    let s : Slot → State := fun x => { working [{ discharge 3 1 .ready with lane := some 0 }] id with
      lanes := running.lanes.set 0 { Lane.powerOn with slot := x } }
    (((s .worked).lanes[(0 : LaneNo)]).slot.move = none ∧ ((s (.free true)).lanes[(0 : LaneNo)]).slot.move = none) ∧
    (((s (.reserved 3)).lanes[(0 : LaneNo)]).slot.move = some 3 ∧ ((s (.called 3)).lanes[(0 : LaneNo)]).slot.move = some 3 ∧
      ((s (.arrived 3)).lanes[(0 : LaneNo)]).slot.move = some 3) ∧
    (∀ (k : CraneNo) (r : MoveRecord) (l : Option LaneNo),
      (fun (_ : CraneNo) (x : MoveRecord) => decide (x.state ≠ .active)) k { r with lane := l, called := false } =
        (fun (_ : CraneNo) (x : MoveRecord) => decide (x.state ≠ .active)) k r) ∧
    ({ discharge 3 1 .ready with lane := some 0 } : MoveRecord).lane = some 0 ∧
    (voidRecord 0 { discharge 3 1 .ready with lane := some 0 } .voidedCancel (s (.called 3))).areas = (s (.called 3)).areas ∧
    (discharge 2 1 .staged).lane = none ∧ (discharge 2 1 .staged).state = .staged ∧
    (voidRecord 0 (discharge 2 1 .staged) .voidedSkip queued).areas = queued.areas := by
  refine ⟨?_, ?_, fun _ _ _ => rfl, rfl, ?_, rfl, rfl, ?_⟩ <;> decide +kernel

/-! ### Witnesses: the uplink port -/

/-- The state with the uplink changed. -/
def onUplink (f : Uplink → Uplink) (s : State) : State := { s with uplink := f s.uplink }

/-- Eight telegrams. -/
def eight : List Telegram := List.replicate 8 (part 0x20 [])

theorem witness_ReceiverTakesAndDiscards :
    (running.resetAsserted = false ∧ running.uplink.breaking = false ∧ running.uplink.receiver = .hunting) ∧
    (let s := onUplink (fun u => { u with receiver := .collecting 0x3C, settings := ⟨23, .even, 1⟩ }) running;
      (s.resetAsserted = false ∧ s.uplink.breaking = false ∧ s.uplink.receiver = .collecting 0x3C ∧
        s.uplink.settings.parity ≠ .none) ∧ 120 < (121 : Byte).toNat ∧
        isMark s.uplink.settings ⟨0x40, true, false, true⟩ = true ∧ ([] : List Byte).length ≤ 120 ∧
        (0 : BitVec 16) ≠ checkOf 0x21 0 []) ∧
    (∀ q : List Telegram, q = [] ∨ q = eight.tail →
      (onUplink (fun u => { u with receiver := .collecting 0x3C, inbound := q }) running).uplink.receiver = .collecting 0x3C ∧
        q.length < 8 ∧ longBody.tail.length ≤ 120) ∧ 8 ≤ eight.length := by
  refine ⟨⟨rfl, rfl, rfl⟩, ?_, ?_, by decide⟩
  · refine ⟨?_, ?_, ?_, ?_, ?_⟩ <;> decide +kernel
  · rintro q (rfl | rfl) <;> exact ⟨rfl, by decide +kernel, by decide +kernel⟩

/-- A report of a level. -/
def rep (level : Nat) : Report := ⟨.restartBreak, level, 0, 0, false⟩

theorem witness_BreakClearsTheLine :
    let s := onUplink (fun u => { u with sending := some (.report (part 0x31 [])) })
      { running with reports := { running.reports with queue := [{ rep 1 with inHand := true }] } }
    let gone := onUplink (fun u => { u with sending := some (.report (part 0x31 [])) })
      { running with reports := { running.reports with queue := [rep 1] } }
    let a := onUplink (fun u => { u with sending := some (.response (part 0x30 [])) }) running
    (s.resetAsserted = false ∧ s.uplink.breaking = false ∧ s.uplink.sending = some (.report (part 0x31 [])) ∧
      ∃ r ∈ s.reports.queue, r.inHand = true) ∧
    (gone.uplink.sending = some (.report (part 0x31 [])) ∧ ∀ r ∈ gone.reports.queue, r.inHand = false) ∧
    (a.uplink.breaking = false ∧ a.uplink.sending = some (.response (part 0x30 []))) ∧ running.uplink.sending = none :=
  ⟨⟨rfl, rfl, rfl, _, List.mem_singleton.2 rfl, rfl⟩, ⟨rfl, by decide⟩, ⟨rfl, rfl⟩, rfl⟩

theorem witness_TransmitterSendsInOrder :
    let response : Option Sending := some (.response (part 0x30 []))
    let buffer : Option LineSettings → Option Response := fun x => some ⟨0x3C, 9, 0x23, .accepted, [], x⟩
    let sending := fun x => onUplink (fun u => { u with sending := response, buffer := buffer x }) running
    let reported := onUplink (fun u => { u with sending := some (.report (part 0x31 [])) }) running
    let cut := onUplink (fun u => { u with cutOff := response }) running
    let full := onUplink (fun u => { u with buffer := buffer none }) running
    let waits := onUplink (fun u => { u with waiting := buffer none }) running
    let reports : State := { running with reports := { running.reports with queue := [rep 1, rep 3, rep 3] } }
    (running.resetAsserted = false ∧ ∀ x, (sending x).uplink.sending.isSome) ∧
    (cut.uplink.breaking = false ∧ cut.uplink.sending = none ∧ cut.uplink.cutOff.isSome) ∧
    (full.uplink.cutOff = none ∧ full.uplink.buffer.isSome) ∧
    (waits.uplink.cutOff = none ∧ waits.uplink.buffer = none ∧ waits.uplink.waiting.isSome) ∧
    (reports.uplink.cutOff = none ∧ reports.uplink.buffer = none ∧ reports.uplink.waiting = none ∧
      reports.reports.queue ≠ []) ∧
    (∀ x, (sending x).resetAsserted = false ∧ (sending x).uplink.breaking = false ∧
      (sending x).uplink.sending = some (.response (part 0x30 [])) ∧ ∃ r, (sending x).uplink.buffer = some r ∧ r.settings = x) ∧
    reported.uplink.sending = some (.report (part 0x31 [])) :=
  ⟨⟨rfl, fun _ => rfl⟩, ⟨rfl, rfl, rfl⟩, ⟨rfl, rfl⟩, ⟨rfl, rfl, rfl⟩, ⟨rfl, rfl, rfl, by decide⟩,
    fun _ => ⟨rfl, rfl, rfl, _, rfl, rfl⟩, rfl⟩

theorem witness_ReportQueueDisplacesTheLowest :
    let full : State := { running with reports := { running.reports with queue := rep 0 :: List.replicate 63 (rep 3) } }
    let high : State := { running with reports := { running.reports with queue := List.replicate 64 (rep 3) } }
    running.reports.queue.length < 64 ∧
    (64 ≤ high.reports.queue.length ∧
      ∀ r ∈ high.reports.queue, r.inHand = true ∨ classLevel high (Items.cls .restartBreak) ≤ r.level) ∧
    (64 ≤ full.reports.queue.length ∧ full.reports.queue = [] ++ rep 0 :: List.replicate 63 (rep 3) ∧
      (rep 0).inHand = false ∧ (rep 0).level < classLevel full (Items.cls .restartBreak) ∧
      (∀ r ∈ full.reports.queue, r.inHand = true ∨ (rep 0).level ≤ r.level) ∧
      ∀ r ∈ List.replicate 63 (rep 3), r.inHand = true ∨ (rep 0).level < r.level) := by
  refine ⟨?_, ?_, ?_⟩ <;> decide +kernel

/-! ### Witnesses: orders -/

theorem witness_LegsValidAndMovesEligible :
    let waits : MoveRecord := { deckMove 3 1 .pending with afterMove := some 7 }
    let s : State := { blocked (discharge 3 1 .pending) with areas := running.areas.set 0 ⟨.unlashing, false, some 0⟩ }
    waits.afterMove.isSome ∧ (discharge 3 1 .pending).afterMove = none ∧
    ((∃ n, Touches (deckMove 3 1 .pending) n .deck ∧
        ∀ x, BayAt (blocked (deckMove 3 1 .pending)) n x → ((blocked (deckMove 3 1 .pending)).areas[x.area]).deck ≠ .opened) ∧
      ∀ n, ¬Touches (discharge 3 1 .pending) n .deck) ∧
    (PointIn s (discharge 3 1 .pending) 0 ∧ (s.areas[(0 : AreaNo)]).gang ≠ none ∧
      ∀ a : AreaNo, (running.areas[a]).gang = none) ∧
    (eligible (blocked (discharge 3 1 .pending)) (discharge 3 1 .pending) = true ∧
      eligible (blocked waits) waits = false) := by
  refine ⟨rfl, rfl, ⟨⟨1, deck_touches _ _, fun x h => ?_⟩, hold_touches_no_deck _ _⟩,
    ⟨⟨1, .hold, ⟨1, 1000, 0⟩, ⟨_, List.mem_singleton.2 rfl, .inl ⟨rfl, rfl⟩⟩, ⟨0, rfl, rfl, fun j h => absurd h (by simp)⟩, rfl⟩, ?_, ?_⟩,
    ?_⟩
  · rw [working_bay _ _ _ _ h]; decide +kernel
  all_goals decide +kernel

/-- The body of an ORDER_ADD of a DISCHARGE from the hold of bay 1, with a before-move. -/
def addBody (n before : MoveNo) : List Byte :=
  moveBytes n ++ [1] ++ moveBytes 0 ++ moveBytes before ++ (discharge n 1 .ready).legs.flatMap Leg.bytes

/-- The order that such a body gives. -/
def addOrder (n : MoveNo) (before : Option MoveNo) : AddOrder :=
  ⟨n, .discharge, none, before, (discharge n 1 .ready).legs⟩

theorem addBody_reads : readAdd (addBody 9 0) = some (addOrder 9 none) ∧
    readAdd (addBody 9 3) = some (addOrder 9 (some 3)) ∧ readAdd (addBody 9 1) = some (addOrder 9 (some 1)) ∧
    readAdd (addBody 3 0) = some (addOrder 3 none) ∧ readAdd (addBody 0 0) = some (addOrder 0 none) := by
  refine ⟨?_, ?_, ?_, ?_, ?_⟩ <;> decide +kernel

/-- Crane 0 with 96 moves. -/
def fullQueue : State := working ((List.range 96).map fun i => discharge (BitVec.ofNat 16 (100 + i)) 1 .ready) id

theorem witness_OrderAddRefusedInSequence :
    let t := crane0 Config.kOrderAdd
    (ToCrane (inbound (t []) State.reset) (t []) 0 Config.kOrderAdd ∧ (State.reset.cranes[(0 : CraneNo)]).mode = .absent) ∧
    (ToCrane (inbound (t []) queued) (t []) 0 Config.kOrderAdd ∧ (queued.cranes[(0 : CraneNo)]).mode ≠ .absent ∧
      readAdd [] = none) ∧
    (ToCrane (inbound (t (addBody 0 0)) queued) (t (addBody 0 0)) 0 Config.kOrderAdd ∧
      readAdd (addBody 0 0) = some (addOrder 0 none)) ∧
    (legsValid State.reset .discharge (addOrder 9 none).legs = false ∧
      readAdd (addBody 9 1) = some (addOrder 9 (some 1)) ∧ (1 : MoveNo) ∉ queueNumbers (working [] id) 0) ∧
    (ToCrane (inbound (t (addBody 3 0)) queued) (t (addBody 3 0)) 0 Config.kOrderAdd ∧
      readAdd (addBody 3 0) = some (addOrder 3 none) ∧ legsValid queued .discharge (addOrder 3 none).legs = true ∧
      (3 : MoveNo) ∈ (pool queued).map (·.number)) ∧
    (ToCrane (inbound (t (addBody 9 0)) fullQueue) (t (addBody 9 0)) 0 Config.kOrderAdd ∧
      readAdd (addBody 9 0) = some (addOrder 9 none) ∧ legsValid fullQueue .discharge (addOrder 9 none).legs = true ∧
      (9 : MoveNo) ∉ (pool fullQueue).map (·.number) ∧ 96 ≤ (fullQueue.queues[(0 : CraneNo)]).length) := by
  refine ⟨⟨crane0_ready _ _ _ rfl rfl rfl, ?_⟩, ⟨crane0_ready _ _ _ rfl rfl rfl, ?_, rfl⟩,
    ⟨crane0_ready _ _ _ rfl rfl rfl, addBody_reads.2.2.2.2⟩,
    ⟨?_, addBody_reads.2.2.1, ?_⟩, ⟨crane0_ready _ _ _ rfl rfl rfl, addBody_reads.2.2.2.1, ?_, ?_⟩,
    crane0_ready _ _ _ rfl rfl rfl, addBody_reads.1, ?_, ?_, ?_⟩ <;> decide +kernel

theorem witness_OrderAddAccepted :
    let t := crane0 Config.kOrderAdd
    (ToCrane (inbound (t (addBody 9 0)) queued) (t (addBody 9 0)) 0 Config.kOrderAdd ∧
      readAdd (addBody 9 0) = some (addOrder 9 none)) ∧
    (ToCrane (inbound (t (addBody 9 3)) queued) (t (addBody 9 3)) 0 Config.kOrderAdd ∧
      readAdd (addBody 9 3) = some (addOrder 9 (some 3)) ∧ findIn queued 0 3 = some (discharge 3 1 .ready) ∧
      (discharge 3 1 .ready).busy = false ∧
      ∀ y ∈ queued.queues[(0 : CraneNo)], y.number = 3 → y = discharge 3 1 .ready) ∧
    (ToCrane (inbound (t (addBody 9 1)) queued) (t (addBody 9 1)) 0 Config.kOrderAdd ∧
      readAdd (addBody 9 1) = some (addOrder 9 (some 1)) ∧ findIn queued 0 1 = some (active 1 1 .pickV) ∧
      (active 1 1 .pickV).busy = true) ∧
    ((queued.cranes[(0 : CraneNo)]).mode ≠ .absent ∧ legsValid queued .discharge (addOrder 9 none).legs = true ∧
      ((1 : MoveNo) ∈ queueNumbers queued 0 ∧ (3 : MoveNo) ∈ queueNumbers queued 0) ∧ (9 : MoveNo) ∉ (pool queued).map (·.number) ∧
      (pool queued).length < 512 ∧ (queued.queues[(0 : CraneNo)]).length < 96) ∧
    releaseCondition queued 0 = false ∧ (newRecord queued (addOrder 9 none)).state = .ready ∧
    ((nextOf (exec .orderAdd (inbound (t (addBody 9 0)) queued))).map (·.areas) = some queued.areas ∧
      (nextOf (exec .orderAdd (inbound (t (addBody 9 3)) queued))).map (·.areas) = some queued.areas ∧
      (nextOf (exec .orderAdd (inbound (t (addBody 9 1)) queued))).map (·.areas) = some queued.areas) := by
  refine ⟨⟨crane0_ready _ _ _ rfl rfl rfl, addBody_reads.1⟩,
    ⟨crane0_ready _ _ _ rfl rfl rfl, addBody_reads.2.1, ?_, ?_, ?_⟩,
    ⟨crane0_ready _ _ _ rfl rfl rfl, addBody_reads.2.2.1, ?_, ?_⟩, ?_, ?_, ?_, ?_⟩ <;> decide +kernel

/-- The body of an ORDER_AMEND that gives a move the same DISCHARGE legs. -/
def amendBody (n : MoveNo) (kind : Byte) : List Byte :=
  moveBytes n ++ [kind] ++ (discharge n 1 .ready).legs.flatMap Leg.bytes

theorem witness_OrdersAmendAndCancel :
    let t := crane0 Config.kOrderAmend
    let u := crane0 Config.kOrderCancel
    let legs := (discharge 3 1 .ready).legs
    (∀ b, ToCrane (inbound (t b) queued) (t b) 0 Config.kOrderAmend) ∧
    (([0] : List Byte).length < 2 ∧ (∃ rest, amendBody 3 1 = 0 :: 3 :: rest) ∧ moveOf 0 9 = 9 ∧ findIn queued 0 9 = none) ∧
    (moveOf 0 1 = 1 ∧ findIn queued 0 1 = some (active 1 1 .pickV) ∧ (active 1 1 .pickV).busy = true) ∧
    (moveOf 0 3 = 3 ∧ findIn queued 0 3 = some (discharge 3 1 .ready) ∧ (discharge 3 1 .ready).busy = false ∧
      readAmend [0, 3] = none) ∧
    (readAmend (amendBody 3 2) = some ⟨3, .load, legs⟩ ∧ MoveKind.load ≠ (discharge 3 1 .ready).kind) ∧
    (readAmend (amendBody 3 1) = some ⟨3, .discharge, legs⟩ ∧ legsValid queued .discharge legs = true) ∧
    (∀ b, ToCrane (inbound (u b) queued) (u b) 0 Config.kOrderCancel) ∧ ([0] : List Byte).length ≠ 2 ∧
    ((active 1 1 .pickV).state = .active ∧ (discharge 3 1 .ready).state ≠ .active ∧
      (discharge 3 1 .ready).state ≠ .staged) ∧
    (releaseCondition queued 0 = false ∧ ((pool queued).map (·.number)).Nodup ∧
      (nextOf (exec .orderAmend (inbound (t (amendBody 3 1)) queued))).map (·.areas) = some queued.areas) ∧
    (∀ x ∈ pool queued, ¬MadeReadyBy queued (discharge 3 1 .ready) x) := by
  refine ⟨fun b => crane0_ready _ _ _ rfl rfl rfl, ⟨by decide, ⟨_, rfl⟩, by decide, ?_⟩, ?_, ?_, ?_, ?_,
    fun b => crane0_ready _ _ _ rfl rfl rfl, by decide, ?_, ?_, ?_⟩
  all_goals decide +kernel

/-! ### Witnesses: directives -/

/-- Crane 0 with one directive pending. -/
def directed : State := working [] (fun c => { c with directive := some ⟨7, .hold, none, 0⟩ })

theorem witness_DirectiveRefusedInSequence :
    let t := crane0 Config.kDirective
    let body := [5, DirectiveKind.hold.code]
    (∀ s b, s.resetAsserted = false → s.uplink.waiting = none → par s Config.DEVICE_MARK = 0x3C →
      ToCrane (inbound (t b) s) (t b) 0 Config.kDirective) ∧
    ((State.reset.cranes[(0 : CraneNo)]).mode = .absent ∧ (∀ x, directiveNamed body = some x → x = .hold)) ∧
    ((queued.cranes[(0 : CraneNo)]).mode ≠ .absent ∧ readDirective [5, DirectiveKind.hold.code, 0, 1] = none ∧
      (∀ x, directiveNamed [5, DirectiveKind.hold.code, 0, 1] = some x → x = .hold)) ∧
    ((directed.cranes[(0 : CraneNo)]).mode ≠ .absent ∧ (readDirective body).isSome ∧
      (directed.cranes[(0 : CraneNo)]).directive.isSome) := by
  refine ⟨fun s b h1 h2 h3 => crane0_ready _ _ _ h1 h2 h3, ⟨by decide +kernel, ?_⟩, ⟨by decide +kernel, rfl, ?_⟩, ?_⟩
  · intro x h; cases h; rfl
  · intro x h; cases h; rfl
  · decide +kernel

/-- The first three tests of a directive to crane 0, apart from the body. -/
theorem directive_ready (s : State) (body : List Byte) (o : DirectiveOrder) (h1 : s.resetAsserted = false)
    (h2 : s.uplink.waiting = none) (h3 : par s Config.DEVICE_MARK = 0x3C)
    (h4 : (s.cranes[(0 : CraneNo)]).mode ≠ .absent) (h5 : readDirective body = some o)
    (h6 : (s.cranes[(0 : CraneNo)]).directive = none) :
    DirectiveReady (inbound (crane0 Config.kDirective body) s) (crane0 Config.kDirective body) 0 o :=
  ⟨crane0_ready _ _ _ h1 h2 h3, h4, h5, h6⟩

theorem witness_HoldTaken :
    DirectiveReady (inbound (crane0 Config.kDirective [5, 1]) queued) (crane0 Config.kDirective [5, 1]) 0 ⟨5, .hold, none⟩ ∧
      ((queued.cranes[(0 : CraneNo)]).active = some 1 ∧ (queued.cranes[(0 : CraneNo)]).staged = some 2) ∧
    DirectiveReady (inbound (crane0 Config.kDirective [5, 1]) away) (crane0 Config.kDirective [5, 1]) 0 ⟨5, .hold, none⟩ ∧
      ((away.cranes[(0 : CraneNo)]).active = none ∧ (away.cranes[(0 : CraneNo)]).staged = none) := by
  refine ⟨directive_ready _ _ _ rfl rfl rfl ?_ rfl ?_, ?_, directive_ready _ _ _ rfl rfl rfl ?_ rfl ?_, ?_⟩ <;> decide +kernel

theorem witness_ResumeAndReturnTaken :
    let ready := fun s b o => DirectiveReady (inbound (crane0 Config.kDirective b) s) (crane0 Config.kDirective b) 0 o
    ready queued [5, 2] ⟨5, .resume, none⟩ ∧
    (ready queued [5, 6] ⟨5, .returnCrane, none⟩ ∧ (queued.cranes[(0 : CraneNo)]).mode ≠ .withdrawn) ∧
    (ready away [5, 6] ⟨5, .returnCrane, none⟩ ∧ (away.cranes[(0 : CraneNo)]).mode = .withdrawn) := by
  refine ⟨directive_ready _ _ _ rfl rfl rfl ?_ rfl ?_, ⟨directive_ready _ _ _ rfl rfl rfl ?_ rfl ?_, ?_⟩,
    directive_ready _ _ _ rfl rfl rfl ?_ rfl ?_, ?_⟩ <;> decide +kernel

/-- Crane 0 held by directive, with two READY moves behind its ACTIVE move. -/
def behind : State :=
  working [active 1 1 .pickV, discharge 3 1 .ready, discharge 4 1 .ready] (fun c => { c with active := some 1, held := true })

theorem witness_SkipAndPromoteTaken :
    (∀ b o, readDirective b = some o →
      DirectiveReady (inbound (crane0 Config.kDirective b) queued) (crane0 Config.kDirective b) 0 o) ∧
    (readDirective [5, 3, 0, 1] = some ⟨5, .skip, some 1⟩ ∧ readDirective [5, 3, 0, 3] = some ⟨5, .skip, some 3⟩ ∧
      readDirective [5, 3, 0, 9] = some ⟨5, .skip, some 9⟩ ∧ readDirective [5, 4, 0, 1] = some ⟨5, .promote, some 1⟩ ∧
      readDirective [5, 4, 0, 3] = some ⟨5, .promote, some 3⟩ ∧
      readDirective [5, 4, 0, 9] = some ⟨5, .promote, some 9⟩) ∧
    findIn queued 0 9 = none ∧ findIn queued 0 1 = some (active 1 1 .pickV) ∧
    findIn queued 0 3 = some (discharge 3 1 .ready) ∧
    ((active 1 1 .pickV).state = .active ∧ (active 1 1 .pickV).busy = true ∧ (discharge 3 1 .ready).state ≠ .active ∧
      (discharge 3 1 .ready).busy = false) ∧
    (∀ x ∈ pool queued, ¬MadeReadyBy queued (discharge 3 1 .ready) x) ∧
    (releaseCondition queued 0 = false ∧ releaseCondition behind 0 = false ∧ findIn behind 0 4 = some (discharge 4 1 .ready) ∧
      ((nextOf (exec .promote (inbound (crane0 Config.kDirective [5, 4, 0, 4]) behind))).map fun u =>
        (decide (u.areas = behind.areas), queueNumbers u 0)) = some (true, [1, 4, 3])) := by
  refine ⟨fun b o h => directive_ready _ _ _ rfl rfl rfl (by decide +kernel) h (by decide +kernel), ?_, ?_, ?_, ?_, ?_, ?_, ?_⟩ <;>
    decide +kernel

/-- Crane 0 silent since 0, its ACTIVE move holding lane 0, and a directive pending or none. -/
def silent (now : Clock) (d : Option PendingDirective) : State :=
  { working [{ active 1 1 .setL with lane := some 0 }] (fun c =>
      { c with active := some 1, directive := d, silenceStart := some 0 }) with
    clock := now
    lanes := running.lanes.set 0 { Lane.powerOn with use := .home 0, slot := .arrived 1 } }

theorem silent_holds (now : Clock) (d : Option PendingDirective) : ActiveHolds (silent now d) 0 := by
  intro n r l h1 h2 h3
  cases (show some (1 : MoveNo) = some n from h1)
  cases (show some { active 1 1 .setL with lane := some 0 } = some r from h2)
  cases (show some (0 : LaneNo) = some l from h3)
  rfl

theorem witness_WithdrawTaken :
    let b := [5, DirectiveKind.withdraw.code]
    let ready := fun s => DirectiveReady (inbound (crane0 Config.kDirective b) s) (crane0 Config.kDirective b) 0 ⟨5, .withdraw, none⟩
    (ready away ∧ (away.cranes[(0 : CraneNo)]).mode = .withdrawn) ∧
    (ready queued ∧ (queued.cranes[(0 : CraneNo)]).mode ≠ .withdrawn ∧ (queued.cranes[(0 : CraneNo)]).active.isSome ∧
      (queued.cranes[(0 : CraneNo)]).silenceStart = none) ∧
    (ready (silent 1199 none) ∧ ((silent 1199 none).cranes[(0 : CraneNo)]).silenceStart = some 0 ∧
      age (silent 1199 none).clock 0 < par (silent 1199 none) Config.SILENT_WITHDRAW) ∧
    (ready (silent 1200 none) ∧ ((silent 1200 none).cranes[(0 : CraneNo)]).mode ≠ .withdrawn ∧
      ((silent 1200 none).cranes[(0 : CraneNo)]).active.isSome ∧
      ((silent 1200 none).cranes[(0 : CraneNo)]).silenceStart = some 0 ∧
      par (silent 1200 none) Config.SILENT_WITHDRAW ≤ age (silent 1200 none).clock 0 ∧
      ((pool (silent 1200 none)).map (·.number)).Nodup ∧ ActiveHolds (silent 1200 none) 0) ∧
    (ready (working [] id) ∧ ((working [] id).cranes[(0 : CraneNo)]).mode ≠ .withdrawn ∧
      ((working [] id).cranes[(0 : CraneNo)]).active = none) := by
  have silence := directive_ready (body := [5, DirectiveKind.withdraw.code]) (o := ⟨5, .withdraw, none⟩)
  refine ⟨⟨silence _ rfl rfl rfl ?_ rfl ?_, ?_⟩, ⟨silence _ rfl rfl rfl ?_ rfl ?_, ?_, ?_, ?_⟩, ⟨silence _ rfl rfl rfl ?_ rfl ?_, ?_, ?_⟩,
    ⟨silence _ rfl rfl rfl ?_ rfl ?_, ?_, ?_, ?_, ?_, ?_, silent_holds _ _⟩, silence _ rfl rfl rfl ?_ rfl ?_, ?_, ?_⟩ <;> decide +kernel

theorem witness_SilenceAcceptsWithdraw :
    let s := fun now => silent now (some ⟨7, .withdraw, none, 0⟩)
    ((s 1200).resetAsserted = false ∧ ((s 1200).cranes[(0 : CraneNo)]).directive = some ⟨7, .withdraw, none, 0⟩ ∧
      ((s 1200).cranes[(0 : CraneNo)]).silenceStart = some 0 ∧
      par (s 1200) Config.SILENT_WITHDRAW ≤ age (s 1200).clock 0 ∧ ((pool (s 1200)).map (·.number)).Nodup ∧
      ActiveHolds (s 1200) 0) ∧
    (((s 1199).cranes[(0 : CraneNo)]).silenceStart = some 0 ∧
      age (s 1199).clock 0 < par (s 1199) Config.SILENT_WITHDRAW) := by
  refine ⟨⟨rfl, ?_, ?_, ?_, ?_, silent_holds _ _⟩, ?_⟩ <;> decide +kernel

/-! ### Witnesses: management telegrams -/

theorem witness_IdentStatusReadAnswer :
    (∀ kind body, ToPart (inbound (part kind body) queued) (part kind body) kind) ∧
    ((0 : Byte) = 0 ∧ 12 < (13 : Byte).toNat) ∧
    ((9 : MoveNo) ∉ (pool queued).map (·.number) ∧ moveOf 0 9 = 9 ∧ moveOf 0 3 ≠ 0 ∧
      moveOf 0 3 ∈ (pool queued).map (·.number)) ∧
    (of16 0 7 < 8 ∧ of16 0 15 < 16 ∧ of16 0 31 < 32 ∧ of16 0 5 = (5 : GangNo).val ∧
      queued.bays[(0 : Fin 64)] = some ⟨1, 1000, 0⟩ ∧ of16 0 21 = (Station.gate 7).index.val ∧
      of16 0 39 = Config.FIELD_STOP.val ∧ of16 0 7 = (7 : CraneNo).val) := by
  refine ⟨fun _ _ => part_ready _ _ _ rfl rfl rfl, ?_, ?_, ?_⟩ <;> decide +kernel

theorem witness_ReadTablesAnswer :
    (∀ kind body, ToPart (inbound (part kind body) busy) (part kind body) kind) ∧
    (moveOf 0 2 = (discharge 2 1 .staged).number ∧ (discharge 2 1 .staged).number ≠ 0 ∧
      busy.queues[(0 : CraneNo)] = [active 1 1 .pickV] ++ discharge 2 1 .staged :: [discharge 3 1 .ready] ∧
      ((pool busy).map (·.number)).Nodup) ∧
    (of16 0 7 = (7 : CraneNo).val ∧ of16 0 15 = (15 : LaneNo).val ∧ of16 0 31 = (31 : AreaNo).val) ∧
    (∀ j ∈ busy.jobs, j.area ≠ 31) ∧ (busy.jobs = [] ++ (⟨0, .lash⟩ : Job) :: []) ∧
    (busy.roster[(7 : CraneNo)] = none ∧ busy.roster[(0 : CraneNo)] = some ⟨100, [0]⟩ ∧ ([0] : List LaneNo).length ≤ 3) := by
  refine ⟨fun _ _ => part_ready _ _ _ rfl rfl rfl, ?_, ?_, ?_, ?_, ?_⟩ <;> decide +kernel

theorem witness_SetParamWritesClamped :
    (∀ body, ToPart (inbound (part Config.kSetParam body) queued) (part Config.kSetParam body) Config.kSetParam) ∧
    (40 ≤ (40 : Byte).toNat) ∧
    ((11 : Byte).toNat = Config.ANSWER_MODE.val ∧ 1 < of16 0 2) ∧
    ((0 : Byte).toNat = Config.SEP.val ∧ clampedValue queued Config.SEP (of16 0 200) ≠ par queued Config.SEP ∧
      ∃ r ∈ pool queued, r.state = .staged ∨ r.state = .active) ∧
    ((14 : Byte).toNat = Config.WIND_STOP.val ∧ Config.WIND_STOP ≠ Config.LASH_LEAD ∧ Config.WIND_STOP ≠ Config.SEP ∧
      Config.WIND_STOP ≠ Config.ANSWER_MODE ∧ Config.WIND_STOP ≠ Config.UPLINK_PARITY ∧
      Config.WIND_STOP ≠ Config.FIELD_PARITY) ∧
    ((4 : Byte).toNat = Config.LASH_LEAD.val ∧ writtenValue queued Config.LASH_LEAD 1 ≠ par queued Config.LASH_LEAD ∧
      writtenValue queued Config.LASH_LEAD (par queued Config.LASH_LEAD) = par queued Config.LASH_LEAD) ∧
    (let s := blocked (deckMove 3 1 .pending);
      (s.areas[(0 : AreaNo)]).deck = .lashed ∧ LeadWork s 0 ∧ (running.areas[(0 : AreaNo)]).deck = .lashed ∧
        ∀ k : CraneNo, running.queues[k] = []) := by
  refine ⟨fun _ => part_ready _ _ _ rfl rfl rfl, ?_, ?_, ⟨?_, ?_, _, ?_, Or.inr (rfl : (active 1 1 .pickV).state = _)⟩, ?_, ?_,
    rfl, ⟨0, deckMove 3 1 .pending, ?_, 1, _, deck_touches _ _, working_bay_one _ _, rfl⟩, ?_, ?_⟩ <;> decide +kernel

theorem witness_AckSummaryClears :
    (∀ body, ToPart (inbound (part Config.kAckSummary body) queued) (part Config.kAckSummary body) Config.kAckSummary) ∧
    ([1] : List Byte).length ≠ 2 ∧ 0x40 ≤ (0x40 : Byte).toNat ∧ (0x3F : Byte).toNat < 0x40 :=
  ⟨fun _ => part_ready _ _ _ rfl rfl rfl, by decide, by decide, by decide⟩

theorem not_refused (c : Instr) (s : State) (t : Telegram) (row : List Byte) (hb : s.uplink.buffer = none)
    (h : resultOf (exec c (aloneRow s t row)) = some .accepted) (z : Result) : ¬RowRefused c s t row z := fun ⟨hz, h'⟩ => by
  rw [h'] at h
  simp [resultOf, answeredOnly, answeredUplink, takenUplink, aloneRow, hb] at h
  exact hz h

theorem witness_LoadTelegramsAreWhole :
    let areas : List (List Byte) := [[4, 3, 0], [5, 0, 1]]
    let late : List (List Byte) := [[4, 3, 0], [32, 0, 0]]
    let roster : List (List Byte) := [[2, 1, 0, 5, 0, 0xFF, 0xFF, 0xFF], [3, 1, 0, 9, 0, 0xFF, 0xFF, 0xFF]]
    let lanes : List (List Byte) := [[4, 0x20, 0, 9, 0, 1], [5, 0x11, 0, 9, 1, 5]]
    let bays : List (List Byte) := [[4, 7, 0, 9, 0], [5, 0, 0, 9, 31]]
    let s := fun kind rows => inbound (part kind (rows : List (List Byte)).flatten) running
    let t := fun kind rows => part kind (rows : List (List Byte)).flatten
    (∀ kind rows, ToPart (s kind rows) (t kind rows) kind) ∧
    ((∀ rows ∈ [areas, late], ∀ r ∈ rows, r.length = 3) ∧ (∀ r ∈ roster, r.length = 8) ∧ (∀ r ∈ lanes, r.length = 6) ∧
      (∀ r ∈ bays, r.length = 5) ∧ ∀ rows ∈ [areas, late, roster, lanes, bays], rows ≠ [] ∧ (rows.map (·.head?)).Nodup) ∧
    (∀ r ∈ areas, ∀ z, ¬RowRefused .loadAreas (s Config.kLoadAreas areas) (t Config.kLoadAreas areas) r z) ∧
    (∀ r ∈ roster, ∀ z, ¬RowRefused .loadRoster (s Config.kLoadRoster roster) (t Config.kLoadRoster roster) r z) ∧
    (∀ r ∈ lanes, ∀ z, ¬RowRefused .loadLanes (s Config.kLoadLanes lanes) (t Config.kLoadLanes lanes) r z) ∧
    ((∀ z, ¬RowRefused .loadAreas (s Config.kLoadAreas late) (t Config.kLoadAreas late) [4, 3, 0] z) ∧
      RowRefused .loadAreas (s Config.kLoadAreas late) (t Config.kLoadAreas late) [32, 0, 0] .range) ∧
    ((running.bays.toList.all (·.isNone)) = true ∧ pool running = []) ∧
    ([0] : List Byte).length % 3 ≠ 0 ∧
    ((0 : Nat) < 1 ∧ 1 * 3 < [4, 0, 0, 4, 3, 1].length ∧ [4, 0, 0, 4, 3, 1].length % 3 = 0 ∧
      ([4, 0, 0, 4, 3, 1] : List Byte)[0 * 3]? = ([4, 0, 0, 4, 3, 1] : List Byte)[1 * 3]?) ∧
    32 < (List.replicate 33 (0x40 : Byte)).length ∧ (List.replicate 32 (0x40 : Byte)).length ≤ 32 := by
  refine ⟨fun _ _ => part_ready _ _ _ rfl rfl rfl, by decide +kernel, ?_, ?_, ?_,
    ⟨not_refused _ _ _ _ rfl (by decide +kernel), by decide, rfl⟩, by decide +kernel, by decide, by decide, by decide, by decide⟩
  all_goals
    intro r hr
    refine not_refused _ _ _ _ rfl ?_
    revert r
    decide +kernel

/-- The part with lane 0 a home lane of crane 0, which is ABSENT. -/
def homed : State := { running with lanes := running.lanes.set 0 { Lane.powerOn with use := .home 0 } }

theorem witness_LoadRosterRow :
    let fits := fun (s : State) (k : CraneNo) (count b1 b2 b3 : Byte) (ls : List LaneNo) =>
      count.toNat = ls.length ∧ (ls.map fun l => byte l.val) = [b1, b2, b3].take count.toNat ∧
      ([b1, b2, b3].filter fun b => decide (b ≠ 0xFF)).length = count.toNat ∧ ls.Nodup ∧ ∀ l ∈ ls, (s.lanes[l]).use = .home k
    (∀ s body, s.resetAsserted = false → s.uplink.waiting = none → par s Config.DEVICE_MARK = 0x3C →
      ToPart (inbound (part Config.kLoadRoster body) s) (part Config.kLoadRoster body) Config.kLoadRoster) ∧
    (8 ≤ (8 : Byte).toNat ∧ (0 : Byte).toNat = (0 : CraneNo).val ∧ (7 : Byte).toNat = (7 : CraneNo).val) ∧
    (1 < (2 : Byte).toNat ∧ par homed Config.QUAY_LEN < of16 0x17 0x71 ∧ of16 0x17 0x70 ≤ par homed Config.QUAY_LEN) ∧
    fits homed 0 1 0 0xFF 0xFF [0] ∧
    (∀ ls, ¬fits homed 0 4 0 0xFF 0xFF ls) ∧ (∀ ls, ¬fits homed 0 1 0 1 0xFF ls) ∧
    (homed.queues[(0 : CraneNo)] = [] ∧ (homed.cranes[(0 : CraneNo)]).mode = .absent) ∧
    (queued.queues[(0 : CraneNo)] ≠ [] ∧ fits queued 0 1 0 0xFF 0xFF [0]) ∧
    ((working [] id).queues[(0 : CraneNo)] = [] ∧ ((working [] id).cranes[(0 : CraneNo)]).mode ≠ .absent ∧
      fits (working [] id) 0 1 0 0xFF 0xFF [0]) := by
  refine ⟨fun s b h1 h2 h3 => part_ready _ _ _ h1 h2 h3, ?_, ?_, ?_, ?_, ?_, ?_, ?_, ?_⟩
  · decide
  · decide +kernel
  · decide +kernel
  · rintro ls ⟨-, -, h, -⟩; revert h; decide
  · rintro ls ⟨-, -, h, -⟩; revert h; decide
  all_goals decide +kernel

theorem witness_LoadLaneAndBayRows :
    (∀ kind body, ToPart (inbound (part kind body) queued) (part kind body) kind) ∧
    (16 ≤ (16 : Byte).toNat ∧ LaneUse.ofCode 0x27 = none ∧ 3000 < of16 0x0B 0xB9 ∧ of16 0x0B 0xB8 ≤ 3000 ∧
      50 < (51 : Byte).toNat ∧ LaneUse.ofCode 0x26 = some (.shared 6)) ∧
    (queued.roster[(0 : CraneNo)] = some ⟨100, [0]⟩ ∧ (0 : LaneNo) ∈ ([0] : List LaneNo) ∧
      LaneUse.shared 6 ≠ .home 0) ∧
    ((busy.lanes[(1 : LaneNo)]).slot = .worked ∧ busy.roster[(1 : CraneNo)] = none) ∧
    ((queued.lanes[(1 : LaneNo)]).slot = .free false) ∧
    (64 ≤ (64 : Byte).toNat ∧ 120 < (121 : Byte).toNat ∧ 32 ≤ (32 : Byte).toNat) ∧
    ((0 : Fin 64) ≠ 1 ∧ queued.bays[(0 : Fin 64)] = some ⟨1, 1000, 0⟩) ∧
    ((discharge 3 1 .ready) ∈ pool queued ∧ (1, Zone.hold) ∈ (discharge 3 1 .ready).points) ∧
    (queued.bays[(1 : Fin 64)] = none) := by
  refine ⟨fun _ _ => part_ready _ _ _ rfl rfl rfl, ?_, ?_, ?_, ?_, ?_, ?_, ?_, ?_⟩ <;> decide +kernel

theorem witness_LoadAreaRow :
    (∀ s body, s.resetAsserted = false → s.uplink.waiting = none → par s Config.DEVICE_MARK = 0x3C →
      ToPart (inbound (part Config.kLoadAreas body) s) (part Config.kLoadAreas body) Config.kLoadAreas) ∧
    (32 ≤ (32 : Byte).toNat ∧ (1 : Byte) ≠ 0 ∧ (1 : Byte) ≠ 3 ∧ 1 < (2 : Byte).toNat) ∧
    ((discharge 3 1 .ready) ∈ pool queued ∧ (0 : AreaNo) ∈ pointAreas queued (discharge 3 1 .ready)) ∧
    (pool State.reset = [] ∧ (State.reset.areas[(31 : AreaNo)]).gang = none ∧ State.reset.berth.state ≠ .running) ∧
    (pool running = [] ∧ (running.areas[(31 : AreaNo)]).gang = none ∧ running.berth.state = .running) := by
  refine ⟨fun s b h1 h2 h3 => part_ready _ _ _ h1 h2 h3, ?_, ?_, ?_, ?_⟩ <;> decide +kernel

theorem witness_ResetCoordEmpties :
    (∀ body, ToPart (inbound (part Config.kResetCoord body) busy) (part Config.kResetCoord body) Config.kResetCoord) ∧
    ([0] : List Byte) ≠ [] := ⟨fun _ => part_ready _ _ _ rfl rfl rfl, by decide⟩

/-- R23, R118: the reset discards the one move with a deck point in an OPEN area whose flag is set, makes no lash test for
it, and leaves the bay map and the area table as they were. -/
theorem test_reset_coord_keeps_area_and_bay :
    let q := [{ discharge 1 1 .ready with legs := [⟨1, .deck, none, box, none⟩] }]
    let s : State := { working q id with areas := running.areas.set 0 ⟨.opened, true, none⟩ }
    noDeckWork s 0 = false ∧
      (nextOf (exec .resetCoord (inbound (part Config.kResetCoord []) s))).map (fun u =>
        (decide (u.queues[(0 : CraneNo)] = []), u.areas[(0 : AreaNo)], u.jobs, u.bays[(0 : Fin 64)])) =
          some (true, ⟨.opened, true, none⟩, [], some ⟨1, 1000, 0⟩) := by decide +kernel

theorem witness_GangClearTaken :
    (∀ body, ToPart (inbound (part Config.kGangClear body) busy) (part Config.kGangClear body) Config.kGangClear) ∧
    ([] : List Byte).length ≠ 1 ∧ 6 ≤ (6 : Byte).toNat ∧ (busy.gangs[(5 : GangNo)]).state = .off ∧
    ((busy.gangs[(0 : GangNo)]).state = .sent ⟨1, .unlash⟩ ∧ busy.berth.state = .running) ∧
    (let s : State := { busy with berth := { busy.berth with state := .held } };
      s.berth.state ≠ .running ∧ (s.gangs[(0 : GangNo)]).state ≠ .off) ∧
    (let s : State := { State.reset with gangs := State.reset.gangs.set 0 ⟨.idle, none, .clear⟩ };
      s.berth.state ≠ .running ∧ (s.gangs[(0 : GangNo)]).state = .idle) := by
  refine ⟨fun _ => part_ready _ _ _ rfl rfl rfl, ?_, ?_, ?_, ?_, ?_, ?_⟩ <;> decide +kernel

/-- A part with gang 0 in a state, its station ACTIVE, and the lash-required flag of area 0 as given. -/
def ganged (x : GangState) (required : Bool) (q : List MoveRecord) : State :=
  let s := working q id
  { s with
    gangs := s.gangs.set 0 ⟨x, some 250, .clear⟩
    areas := s.areas.set 0 ⟨.unlashing, required, some 0⟩
    stations := s.stations.set (Station.gang 0).index ⟨.active, 0⟩ }

theorem ganged_deck (x : GangState) (b : Bool) : DeckIn (ganged x b [deckMove 3 1 .pending]) (deckMove 3 1 .pending) 0 :=
  ⟨1, ⟨1, 1000, 0⟩, deck_touches _ _, ⟨0, rfl, rfl, fun j h => absurd h (by simp)⟩, rfl⟩

theorem witness_GangSignsOnAndOff :
    let x : GangEventItem := ⟨251, .done, 0⟩
    let body : List Byte := [0, 1, 251, 2, 0]
    (∀ y b q, Fresh ((ganged y b q).gangs[(0 : GangNo)]).serial x.serial) ∧
    (∀ j b q, ((ganged (.working j) b q).gangs[(0 : GangNo)]).state = (if true then .working j else .sent j) ∧
      ((ganged (.sent j) b q).gangs[(0 : GangNo)]).state = (if false then .working j else .sent j)) ∧
    (x.area = 0 ∧ x.event = .done) ∧
    (((ganged .idle false []).areas[(0 : AreaNo)]).lashRequired = false ∧
      ((ganged .idle true []).areas[(0 : AreaNo)]).lashRequired = true ∧ NoDeckWork (ganged .idle true []) 0 ∧
      ¬LeadWork (ganged .idle true []) 0 ∧ LeadWork (ganged .idle true [deckMove 3 1 .pending]) 0) ∧
    (((ganged .off true []).gangs[(0 : GangNo)]).state = .off ∧ ((ganged .idle true []).gangs[(0 : GangNo)]).state = .idle) ∧
    (readGangStatus [] = none ∧ readGangStatus body = some ⟨false, [x]⟩ ∧ readGangStatus [1, 0] = some ⟨true, []⟩) ∧
    (let s := ganged (.sent ⟨0, .unlash⟩) true [];
      let t := takeSignedOn 0 false ([x].foldl (gangEvent 0) s);
      (s.gangs[(0 : GangNo)]).state.job.isSome ∧ (t.gangs[(0 : GangNo)]).state.job = none) ∧
    ((ganged .idle true []).gangs[(0 : GangNo)]).state = ((takeSignedOn 0 true (ganged .idle true [])).gangs[(0 : GangNo)]).state := by
  refine ⟨fun y b q l h => ?_, fun _ _ _ => ⟨rfl, rfl⟩, by decide, ⟨by decide +kernel, by decide +kernel, ?_, ?_, ?_⟩, by decide +kernel,
    by decide, by decide +kernel, rfl⟩
  · cases (show some (250 : Byte) = some l from h); decide
  · intro r h
    cases (show r ∈ [] from h)
  · rintro ⟨k, r, hr, -⟩
    have : ∀ k : CraneNo, (ganged .idle true []).queues[k] = [] := by decide +kernel
    rw [this] at hr
    cases hr
  · exact ⟨0, _, by decide +kernel, ganged_deck _ _⟩

theorem witness_DispatchPassGivesJobs :
    let s : State := { ganged .idle true [discharge 3 1 .ready] with jobs := [⟨1, .lash⟩, ⟨0, .unlash⟩] }
    let covered : State := { ganged .idle true [active 1 1 .pickV] with jobs := [⟨0, .unlash⟩, ⟨1, .lash⟩] }
    State.reset.berth.state ≠ .running ∧ (∀ g : GangNo, (running.gangs[g]).state ≠ .idle) ∧ running.jobs = [] ∧
    ((s.berth.state = .running ∧ (s.gangs[(0 : GangNo)]).state = .idle ∧ stationState s (.gang 0) = .active) ∧
      s.jobs = [⟨1, .lash⟩] ++ ⟨0, .unlash⟩ :: [] ∧ ∀ r ∈ pool s, ¬(r.state = .staged ∨ r.state = .active)) ∧
    (covered.jobs = [⟨0, .unlash⟩] ++ ⟨1, .lash⟩ :: [] ∧
      (∃ r ∈ pool covered, (r.state = .staged ∨ r.state = .active) ∧ PointIn covered r 0) ∧
      ∀ r ∈ pool covered, ¬PointIn covered r 1) := by
  refine ⟨by decide, by decide +kernel, rfl, by decide +kernel, rfl, ⟨active 1 1 .pickV, by decide +kernel, .inr rfl, ?_⟩, ?_⟩
  · exact ⟨1, .hold, ⟨1, 1000, 0⟩, ⟨_, List.mem_singleton.2 rfl, .inl ⟨rfl, rfl⟩⟩, ⟨0, rfl, rfl, fun j h => absurd h (by simp)⟩, rfl⟩
  · rintro r - ⟨n, z, x, -, h, hx⟩
    rw [working_bay [] id n x h] at hx
    cases hx

theorem witness_RouterDisposesOfOtherTelegrams :
    (∀ s t, s.resetAsserted = false → s.uplink.waiting = none → AtHead (inbound t s) t) ∧
    (stationOfMark 0x50 = some (.gang 0) ∧ (0x50 : Byte).toNat ≠ par running Config.DEVICE_MARK ∧
      0x80 ≤ (0x80 : Byte).toNat ∧ (0xBF : Byte).toNat ≤ 0xBF) ∧
    (stationOfMark 0x40 = some (.crane 0) ∧ (queued.cranes[(0 : CraneNo)]).mode ≠ .absent) ∧
    ((0x3C : Byte).toNat = par running Config.DEVICE_MARK ∧ 0x2D < (0x2E : Byte).toNat ∧ (0x1F : Byte).toNat < 0x20) ∧
    ((0x13 : Byte) ∉ ([0x10, 0x11, 0x12, 0x18] : List Byte) ∧ ¬0x80 ≤ (0x7F : Byte).toNat) ∧
    (stationOfMark 0x30 = none ∧ (0x30 : Byte).toNat ≠ par running Config.DEVICE_MARK) ∧
    (running.cranes[(0 : CraneNo)]).mode = .absent ∧ running.field.forward.length < 16 ∧
    16 ≤ (List.replicate 16 (part 0x80 [])).length := by
  refine ⟨fun s t h1 h2 => ⟨h1, h2, rfl⟩, ?_, ?_, ?_, ?_, ?_, ?_, ?_, ?_⟩ <;> decide +kernel

/-! ### Witnesses: the field line -/

/-- Crane 0 working, with a poll plan whose first slot is passed over, and a visit in a phase. -/
def visited (st : Station) (p : Option VisitPhase) : State :=
  let s := working [] id
  { s with field := { s.field with
      plan := [0x30, st.mark]
      forward := [⟨st.mark, 0x80, 1, [1]⟩]
      visit := p.map fun p => ⟨st, p, [], ⟨3, .even, 1⟩⟩ } }

/-- Crane 0 to be sent its two moves, the second with lane 4 called for it; gang 0 with a mark, sent to area 14 of bays 41 to
43, the rows of the map standing in another order. -/
def lit (m : GangMark) : State :=
  let s := working [active 1 1 .pickV, { discharge 2 1 .staged with lane := some 4, called := true }]
    (fun c => { c with active := some 1, staged := some 2, jobMark := .full })
  { s with
    gangs := s.gangs.set 0 ⟨.sent ⟨14, .unlash⟩, none, m⟩
    bays := ((s.bays.set 5 (some ⟨43, 3000, 14⟩)).set 6 (some ⟨41, 2800, 14⟩)).set 9 (some ⟨42, 2900, 14⟩)
    lanes := s.lanes.set 4 { Lane.powerOn with use := .shared 0, slot := .called 2 } }

theorem witness_VisitSendsInOrder :
    let s := visited (.crane 0) none
    (s.resetAsserted = false ∧ s.field.visit = none ∧ s.field.plan.length = 2 ∧ stationOfMark 0x30 = none ∧
      stationOfMark (s.field.plan.getD ((s.field.nextSlot + 1) % 2) 0) = some (.crane 0) ∧
      (s.cranes[(0 : CraneNo)]).mode ≠ .absent) ∧
    ((visited (.crane 0) (some .sending)).field.visit.isSome ∧ running.field.plan.length = 0) ∧
    (let c := fun m => { Crane.powerOn with jobMark := m };
      (c .full).jobMark = .full ∧ (c .empty).jobMark = .empty) ∧
    ((let t := lit .job; (t.gangs[(0 : GangNo)]).mark = .job ∧ (t.gangs[(0 : GangNo)]).state = .sent ⟨14, .unlash⟩) ∧
      ((lit .cancel).gangs[(0 : GangNo)]).mark = .cancel) ∧
    ((14 : LaneNo).val = 2 * (7 : GateNo).val ∧ (15 : LaneNo).val = 2 * (7 : GateNo).val + 1) := by
  refine ⟨?_, ?_, ?_, ?_, ?_⟩ <;> decide +kernel

/-- TABLE 55 with TABLES 53 and 56, R39, R115 and R97: the bodies of a visit's telegrams, written out. -/
theorem test_visit_bodies :
    joblistBody (lit .job) 0 =
      [0, 1, 1, 0xFF, 1, 0] ++ List.replicate 11 0x41 ++ [0x80, 0xC8] ++
        [0, 2, 1, 4, 1, 0] ++ List.replicate 11 0x41 ++ [0x80, 0xC8] ∧
      gangJobBody (lit .job) 0 = [1, 14, 41, 42, 43] ∧ gangJobBody (lit .cancel) 0 = [0] ∧
      gateLightBody (lit .job) 2 = [1, 0] := by
  refine ⟨?_, ?_, ?_, ?_⟩ <;> decide +kernel

theorem witness_RepliesMissedBadOrPassedUp :
    (∀ p, (visited (.gate 0) p).resetAsserted = false ∧ (visited (.gate 0) none).field.visit = none) ∧
    (∀ p, (visited (.gate 0) (some p)).field.visit = some ⟨.gate 0, p, [], ⟨3, .even, 1⟩⟩) ∧
    (LineSettings.mk 3 .even 1).parity ≠ .none ∧ 120 < (121 : Byte).toNat ∧ longBody.tail.length ≤ 120 ∧
    (0x60 : Byte) = (Station.gate 0).mark ∧ (0x61 : Byte) ≠ (Station.gate 0).mark ∧
    (0x80 ≤ (0x80 : Byte).toNat ∧ (0xBF : Byte).toNat ≤ 0xBF) ∧
    (¬0x80 ≤ (0x7F : Byte).toNat ∧ (0x7F : Byte) ≠ statusKind (.gate 0)) ∧ (0 : BitVec 16) ≠ checkOf 0x52 0 [0, 0] ∧
    (((visited (.crane 0) none).stations[(Station.crane 0).index]).state = .active ∧
      (let s : State := { visited (.crane 0) none with stations := running.stations.set 0 ⟨.active, 2⟩ };
        (s.stations[(Station.crane 0).index]).state ≠ .silent ∧ 2 ≤ (s.stations[(Station.crane 0).index]).missed ∧
          s.berth.state = .running)) :=
  ⟨fun _ => ⟨rfl, rfl⟩, fun _ => rfl, by decide +kernel⟩

theorem witness_ValidReplyTaken :
    (∀ st : Station, (visited st (some (.collecting st.mark))).resetAsserted = false ∧
      (visited st (some (.collecting st.mark))).field.visit = some ⟨st, .collecting st.mark, [], ⟨3, .even, 1⟩⟩) ∧
    (((visited (.crane 0) none).stations[(Station.crane 0).index]).state = .active ∧
      ((visited (.crane 1) none).stations[(Station.crane 1).index]).state ≠ .active ∧ readCraneStatus [] = none) ∧
    (((visited (.gang 0) none).stations[(Station.gang 0).index]).state ≠ .active ∧
      (let s : State := { visited (.gang 0) none with gangs := running.gangs.set 0 ⟨.idle, none, .cancel⟩ };
        (s.gangs[(0 : GangNo)]).state = .idle ∧ (s.gangs[(0 : GangNo)]).mark = .cancel) ∧
      ∃ t ∈ [(⟨0x50, 0x43, 0, [0]⟩ : Telegram)], t.kind = 0x43 ∧ t.body = [0]) ∧
    readGangStatus [] = none ∧ readGateStatus [2, 0] = none ∧ readGateStatus [0, 1] = some (false, true) :=
  ⟨fun _ => ⟨rfl, rfl⟩, by decide +kernel⟩

/-! ### Witnesses: crane replies -/

/-- Crane 0 with a READY move, and its context changed. -/
def replying (f : Crane → Crane) : State := working [discharge 3 1 .ready] f

theorem witness_CraneReplyTakenInOrder :
    let x : CraneEventItem := ⟨7, .pickV, 3, true, false⟩
    let held : State := { replying id with berth := { running.berth with state := .held, causes := ⟨true, false, false⟩ } }
    let windy : State := { held with berth := { held.berth with causes := ⟨false, true, false⟩ } }
    (([3, 0, 9, 0, 5, 0, 0, 0, 0, 1, 1] ++ [7, 1, 0, 3, 1] : List Byte) =
        [3, 0, 9, 0, 5, 0, 0, 0, 0, 1, byte [x].length] ++ [x].flatMap fun x =>
          [x.serial, x.event.code, byte (x.move.toNat / 256), byte x.move.toNat, byte (x.box1.toNat + 2 * x.box2.toNat)]) ∧
    ((∀ y ∈ [x], y.box1 = true ∨ y.box2 = true) ∧ readCraneStatus [] = none) ∧
    (((replying id).cranes[(0 : CraneNo)]).position = some 100 ∧ (99 : Nat) ≤ par (replying id) Config.QUAY_LEN ∧
      (∀ r ∈ (replying id).queues[(0 : CraneNo)], r.state ≠ .staged ∧ r.state ≠ .active) ∧
      ∃ r ∈ queued.queues[(0 : CraneNo)], r.state = .staged) ∧
    (par running Config.WIND_RESUME = 160 ∧ par running Config.WIND_STOP = 200) ∧
    (((replying id).cranes[(0 : CraneNo)]).mode = .inService ∧ stationState (replying id) (.crane 0) ≠ .silent ∧
      (away.cranes[(0 : CraneNo)]).mode ≠ .inService) ∧
    (windy.berth.causes.wind = true ∧ held.berth.causes.wind = false ∧ held.berth.state ≠ .running ∧
      (replying id).berth.causes = ⟨false, false, false⟩ ∧ (replying id).berth.state = .running) ∧
    ((∀ b, ((replying fun c => { c with fault := b }).cranes[(0 : CraneNo)]).fault = b)) := by
  refine ⟨?_, ?_, ?_, ?_, ?_, ?_, fun _ => rfl⟩ <;> decide +kernel

theorem witness_ViewAndJobWantedTaken :
    let wants := replying fun c => { c with jobWanted := true }
    let still := working [discharge 3 1 .pending] (fun c => { c with jobWanted := true })
    let answers : State := { still with params := still.params.set Config.ANSWER_MODE 0 }
    ((9 : MoveNo) ∉ (pool wants).map (·.number) ∧ (wants.cranes[(0 : CraneNo)]).view = none) ∧
    ((⟨some 3, none⟩ : View).active.isSome ∧ (⟨none, some 3⟩ : View).active = none) ∧
    ((evaluate 0 wants).cranes[(0 : CraneNo)]).active.isSome ∧ ((evaluate 0 still).cranes[(0 : CraneNo)]).active = none ∧
    par still Config.ANSWER_MODE ≠ 0 ∧ ((evaluate 0 answers).cranes[(0 : CraneNo)]).active = none ∧
    par answers Config.ANSWER_MODE = 0 := by
  refine ⟨?_, ?_, ?_, ?_, ?_, ?_, ?_⟩ <;> decide +kernel

/-! ### Witnesses: events and bodies -/

theorem witness_EventSerialsAndFaults :
    let s : Option Byte → State := fun l => working [active 1 1 .pickV] (fun c => { c with active := some 1, serial := l })
    let g : GangState → State := fun x => { running with gangs := running.gangs.set 0 ⟨x, some 250, .job⟩ }
    (((s (some 250)).cranes[(0 : CraneNo)]).serial = some 250 ∧ ¬Fresh (some 250) 250 ∧ ¬Fresh (some 250) 123 ∧
      Fresh (some 250) 122 ∧ Fresh none 0) ∧
    (activeRecord (s none) 0 = some (active 1 1 .pickV) ∧ (active 1 1 .pickV).progress = some ⟨.pickV, false, false⟩) ∧
    (∀ l, (active 1 1 .pickV).legOf .pickV = some l →
      boxesNamed l ⟨.pickV, false, false⟩ ⟨5, .pickV, 1, false, true⟩ = (false, false)) ∧
    (activeRecord (working [] id) 0 = none) ∧
    (((g (.sent ⟨4, .unlash⟩)).gangs[(0 : GangNo)]).state = .sent ⟨4, .unlash⟩ ∧
      ((g (.sent ⟨4, .unlash⟩)).gangs[(0 : GangNo)]).serial = some 250) ∧
    (((g (.working ⟨4, .unlash⟩)).gangs[(0 : GangNo)]).state = .working ⟨4, .unlash⟩) := by
  refine ⟨⟨rfl, fun h => absurd (h _ rfl) (by decide), fun h => absurd (h _ rfl) (by decide), ?_, fun _ h => nomatch h⟩, ?_,
    fun l h => ?_, ?_, ?_, ?_⟩
  · intro l h; cases h; decide
  · decide +kernel
  · cases (show some (⟨1, .hold, none, box, none⟩ : Leg) = some l from h); rfl
  all_goals decide +kernel

/-- Crane 0 with this ACTIVE move, which holds lane 0 in this slot. -/
def cycling (r : MoveRecord) (slot : Slot) (more : List MoveRecord) (f : Crane → Crane) : State :=
  let s := working (r :: more) (fun c => f { c with active := some r.number })
  { s with lanes := s.lanes.set 0 { s.lanes[0] with slot := slot } }

/-- An ACTIVE move of a kind in lane 0 that awaits event `e`. -/
def inLane (kind : MoveKind) (e : CraneEvent) : MoveRecord :=
  let leg : Leg := ⟨1, .hold, none, box, none⟩
  { active 1 1 e with kind := kind, lane := some 0, legs := if kind = .dual then [leg, leg] else [leg] }

theorem cycling_matches (kind : MoveKind) (e : CraneEvent) (slot : Slot) (more : List MoveRecord) (f : Crane → Crane)
    (l : Leg) (hf : (f { (working [] id).cranes[0] with active := some 1 }).active = some 1)
    (hs : (f { (working [] id).cranes[0] with active := some 1 }).serial = none)
    (hk : (inLane kind e).legOf e = some l) (hb : boxesNamed l ⟨e, decide (e = .setL ∨ e = .setV), false⟩ ⟨5, e, 1, true, false⟩ ≠ (false, false)) :
    EventMatches (cycling (inLane kind e) slot more f) 0 ⟨5, e, 1, true, false⟩ (inLane kind e) l ⟨e, decide (e = .setL ∨ e = .setV), false⟩ where
  fresh := fun y h => by
    rw [show ((cycling (inLane kind e) slot more f).cranes[(0 : CraneNo)]).serial = none from hs] at h
    cases h
  active := by
    show ((f { (working [] id).cranes[0] with active := some 1 }).active).bind _ = _
    rw [hf]; rfl
  progress := rfl
  leg := hk
  move := rfl
  next := rfl
  boxes := hb

theorem witness_MatchingEventsAdvance :
    let leg : Leg := ⟨1, .hold, none, box, none⟩
    let event := fun e => (⟨5, e, 1, true, false⟩ : CraneEventItem)
    (EventMatches (cycling (inLane .discharge .pickV) (.reserved 1) [] id) 0 (event .pickV) (inLane .discharge .pickV) leg
        ⟨.pickV, false, false⟩ ∧ (inLane .discharge .pickV).kind.after .pickV = some .setL) ∧
    (∀ slot, EventMatches (cycling (inLane .load .pickL) slot [] id) 0 (event .pickL) (inLane .load .pickL) leg ⟨.pickL, false, false⟩ ∧
      ((cycling (inLane .load .pickL) slot [] id).lanes[(0 : LaneNo)]).slot = slot) ∧
    (∀ slot, EventMatches (cycling (inLane .dual .pickL) slot [] id) 0 (event .pickL) (inLane .dual .pickL) leg ⟨.pickL, false, false⟩ ∧
      ((cycling (inLane .dual .pickL) slot [] id).lanes[(0 : LaneNo)]).slot = slot) ∧
    ((inLane .load .pickL).kind.after .pickL).isSome ∧ ((inLane .dual .pickL).kind.after .pickL).isSome ∧
    (((pool (cycling (inLane .load .pickL) (.called 1) [] id)).map (·.number)).Nodup) := by
  refine ⟨⟨cycling_matches _ _ _ _ _ _ rfl rfl rfl (by decide), rfl⟩, fun _ => ⟨cycling_matches _ _ _ _ _ _ rfl rfl rfl (by decide), rfl⟩,
    fun _ => ⟨cycling_matches _ _ _ _ _ _ rfl rfl rfl (by decide), rfl⟩, rfl, rfl, by decide +kernel⟩

theorem witness_FinalEventCompletes :
    let leg : Leg := ⟨1, .hold, none, box, none⟩
    let r := inLane .discharge .setL
    let next := discharge 2 1 .staged
    let f : Crane → Crane := fun c => { c with staged := some 2, lastCompletion := some 0 }
    let g : DirectiveKind → Crane → Crane := fun d c => { c with held := true, directive := some ⟨7, d, none, 0⟩ }
    (∀ slot, EventMatches (cycling r slot [next] f) 0 ⟨5, .setL, 1, true, false⟩ r leg ⟨.setL, true, false⟩ ∧
      ((cycling r slot [next] f).lanes[(0 : LaneNo)]).slot = slot) ∧
    (∀ slot, EventMatches (cycling (inLane .load .setV) slot [next] f) 0 ⟨5, .setV, 1, true, false⟩ (inLane .load .setV) leg
        ⟨.setV, true, false⟩ ∧ (inLane .load .setV).kind.after .setV = none) ∧
    (∀ d, EventMatches (cycling r (.arrived 1) [] (g d)) 0 ⟨5, .setL, 1, true, false⟩ r leg ⟨.setL, true, false⟩ ∧
      ((cycling r (.arrived 1) [] (g d)).cranes[(0 : CraneNo)]).staged = none ∧
      ((cycling r (.arrived 1) [] (g d)).cranes[(0 : CraneNo)]).directive = some ⟨7, d, none, 0⟩ ∧
      ((cycling r (.arrived 1) [] (g d)).cranes[(0 : CraneNo)]).held = true) ∧
    (((pool (cycling r (.called 1) [next] f)).map (·.number)).Nodup ∧
      ∀ q ∈ (cycling r (.called 1) [next] f).queues[(0 : CraneNo)], q.number ≠ r.number → q.state ≠ .active) ∧
    (r.kind.after .setL = none ∧ r.activation = some 0 ∧ r.holdOverlap = false ∧ r.abandoned = false ∧ r.kind = .discharge) ∧
    (((cycling r (.called 1) [next] f).cranes[(0 : CraneNo)]).staged = some 2 ∧
      findIn (cycling r (.called 1) [next] f) 0 2 = some next ∧
      ((cycling r (.called 1) [next] f).cranes[(0 : CraneNo)]).lastCompletion = some 0 ∧
      ((cycling r (.called 1) [] id).cranes[(0 : CraneNo)]).lastCompletion = none) := by
  refine ⟨fun _ => ⟨cycling_matches _ _ _ _ _ _ rfl rfl rfl (by decide), rfl⟩,
    fun _ => ⟨cycling_matches _ _ _ _ _ _ rfl rfl rfl (by decide), rfl⟩,
    fun _ => ⟨cycling_matches _ _ _ _ _ _ rfl rfl rfl (by decide), rfl, rfl, rfl⟩, ?_, ?_, ?_⟩ <;> decide +kernel

/-- A twin RESTOW leg to another bay, with the greatest mass that a field holds. -/
theorem witness_OrderAddBodyReadsBack :
    let b : Box := ⟨List.replicate 11 0x5A, .ft20, 1023⟩
    let l : Leg := ⟨120, .deck, some ⟨.deck, some 255⟩, b, some b⟩
    let o : AddOrder := ⟨0xFFFF, .restow, some 1, some 2, [l]⟩
    l.bay < 256 ∧ (l.restow.isSome ↔ o.kind = .restow) ∧ b.identifier.length = 11 ∧ b.mass < 1024 ∧
      o.afterMove ≠ some 0 ∧ o.beforeMove ≠ some 0 := by decide

/-! ### The order of tests and of further effects -/

/-- R10 with R7: an ORDER_AMEND with an undefined kind code is refused UNKNOWN for a move not in the queue, COLLISION for a
busy one, and RANGE otherwise. -/
theorem test_amend_tests_layout_last :
    let result := fun n => resultOf (exec .orderAmend (inbound (crane0 Config.kOrderAmend (amendBody n 9)) queued))
    result 9 = some .unknown ∧ result 1 = some .collision ∧ result 3 = some .range := by decide +kernel

/-- R90 with R28: an evaluation of a held crane withdraws its stale request. -/
theorem test_evaluation_of_held_crane_withdraws_stale_request :
    let s : State := { working [] (fun c => { c with held := true }) with
      lanes := running.lanes.set 1 { Lane.powerOn with use := .shared 0, owner := some 1, request := some ⟨0, 9⟩ } }
    ((evaluate 0 s).lanes[(1 : LaneNo)]).request = none := by decide +kernel

/-- R14 with R28, R106 and R114: the cancel of the last deck move of an area makes a hold move of crane 1 READY, the LASH
job that follows is dispatched and makes it PENDING again, and crane 1 is evaluated nevertheless, which withdraws its stale
request (R90). -/
theorem test_dependent_made_ready_has_its_crane_evaluated :
    let s0 := working [deckMove 3 1 .ready] id
    let s : State := { s0 with
      queues := s0.queues.set 1 [{ discharge 4 1 .pending with afterMove := some 3 }]
      areas := s0.areas.set 0 ⟨.opened, true, none⟩
      gangs := s0.gangs.set 0 ⟨.idle, none, .clear⟩
      stations := s0.stations.set (Station.gang 0).index ⟨.active, 0⟩
      lanes := s0.lanes.set 1 { Lane.powerOn with use := .shared 0, owner := some 0, request := some ⟨1, 9⟩ } }
    (nextOf (exec .orderCancel (inbound (crane0 Config.kOrderCancel (moveBytes 3)) s))).map (fun t =>
      ((t.gangs[(0 : GangNo)]).state, (t.queues[(1 : CraneNo)]).map (·.state), (t.lanes[(1 : LaneNo)]).request)) =
      some (.sent ⟨0, .lash⟩, [.pending], none) := by decide +kernel

/-- R117 with R14 and R28: a GANG_CLEAR takes the gang from the area, so that a HOLD move there becomes READY, and its crane
is evaluated and takes it, while the berth is RUNNING. -/
theorem test_gang_clear_releases_the_hold_move :
    let s := ganged (.sent ⟨0, .unlash⟩) false [discharge 3 1 .pending]
    (nextOf (exec .gangClear (inbound (part Config.kGangClear [0]) s))).map (fun t =>
      ((t.gangs[(0 : GangNo)]).state, t.jobs, (t.areas[(0 : AreaNo)]).deck, (t.cranes[(0 : CraneNo)]).active)) =
      some (.off, [⟨0, .unlash⟩], .unlashWait, some 3) := by decide +kernel

/-- R175, TABLE 54: a LOAD_ROSTER row of crane 8 is refused RANGE. -/
theorem test_roster_refuses_crane_8 :
    resultOf (exec .loadRoster (inbound (part Config.kLoadRoster [8, 0, 0, 0, 0, 0xFF, 0xFF, 0xFF]) running)) =
      some .range := by decide +kernel

/-- R102 with R106 and R113: a LOAD_AREAS of an OPEN area with its flag set, while the berth is RUNNING and a gang is free,
sends the gang to lash it. -/
theorem test_load_areas_dispatches :
    let s0 := working [] id
    let s : State := { s0 with
      gangs := s0.gangs.set 0 ⟨.idle, none, .clear⟩
      stations := s0.stations.set (Station.gang 0).index ⟨.active, 0⟩ }
    (nextOf (exec .loadAreas (inbound (part Config.kLoadAreas [0, 3, 1]) s))).map (fun t =>
      ((t.gangs[(0 : GangNo)]).state, t.jobs, (t.areas[(0 : AreaNo)]).deck, t.reports.queue.map (·.items))) =
      some (.sent ⟨0, .lash⟩, [], .lashing, [.area 0 .lashed .opened .loaded, .area 0 .opened .lashWait .lashQueued,
        .area 0 .lashWait .lashing .dispatched, .gang 0 (.dispatched ⟨0, .lash⟩)]) := by decide +kernel

/-- R111: after a DONE and a clear indication in one reply the gang is OFF, has returned no job, and the job that waits is
still queued. -/
theorem test_done_with_clear_indication_takes_no_job :
    let s : State := { ganged (.working ⟨0, .unlash⟩) false [] with jobs := [⟨1, .unlash⟩] }
    let t := gangStatus 0 [0, 1, 251, 2, 0] s
    (t.gangs[(0 : GangNo)]).state = .off ∧ t.jobs = [⟨1, .unlash⟩] ∧ (t.areas[(0 : AreaNo)]).deck = .opened := by
  decide +kernel

end Sys2Proof.Tests
end

/-! PROOFS. The clearance test (R33, R34): what its lists of positions hold, which idle cranes it takes, and that it is the
separation of the claims. -/

namespace Sys2Proof.Machine

/-! ### The bay map and the points of a move -/

/-- R101: a bay number is looked up at the first row of the bay map that carries it. -/
theorem bayRow_eq_some_iff (s : State) (n : Nat) (b : BayRow) : bayRow s n = some b ↔ BayAt s n b := by
  have rows : s.bays.toList = (List.finRange 64).map fun i => s.bays[i] := by
    rw [← List.ofFn_eq_map, ← Vector.toList_ofFn]
    exact congrArg Vector.toList (Vector.ext fun i hi => by simp)
  rw [bayRow, rows, List.findSome?_map, ← Fin.findSome?_eq_findSome?_finRange, Fin.findSome?_eq_some_iff]
  simp only [Function.comp_apply, Option.filter_eq_some_iff, Option.filter_eq_none_iff, decide_eq_true_eq, BayAt, and_assoc]

/-- R3: the points of a leg are its own place and, for a RESTOW, the place it sets into. -/
theorem mem_legPoints_iff (l : Leg) (n : Nat) (z : Zone) :
    (n, z) ∈ l.points ↔ (n = l.bay ∧ z = l.zone) ∨ ∃ d, l.restow = some d ∧ n = d.toBay.getD l.bay ∧ z = d.toZone := by
  cases h : l.restow with
  | none => simp [Leg.points, h]
  | some d => simp [Leg.points, h]

theorem mem_points_iff (r : MoveRecord) (n : Nat) (z : Zone) : (n, z) ∈ r.points ↔ Touches r n z := by
  simp only [MoveRecord.points, List.mem_flatMap, mem_legPoints_iff, Touches]

/-! ### Claims (R33) -/

theorem mem_claims_iff (s : State) (r : MoveRecord) (x : Nat) : x ∈ claims s r ↔ Claims s r x := by
  simp only [claims, List.mem_filterMap, Prod.exists, Option.map_eq_some_iff, bayRow_eq_some_iff, mem_points_iff, Claims,
    exists_and_left]

theorem busy_iff (r : MoveRecord) : r.busy = true ↔ r.state = .active ∨ r.state = .staged := by
  simp only [MoveRecord.busy, decide_eq_true_eq, or_comm]

theorem mem_moveClaims_iff (s : State) (j : CraneNo) (x : Nat) : x ∈ moveClaims s j ↔ CraneClaims s j x := by
  simp only [moveClaims, List.mem_flatMap, List.mem_filter, busy_iff, mem_claims_iff, CraneClaims, and_assoc]

theorem mem_lastPosition_iff (s : State) (j : CraneNo) (x : Nat) :
    x ∈ lastPosition s j ↔ (s.cranes[j]).position = some x := by
  simp only [lastPosition, Option.mem_toList]

/-- R34: the claims `xs` of a crane below are clear of the candidate's claims `ys`, compared as integers. -/
theorem clearOf_below_iff (sep : Nat) (xs ys : List Nat) :
    clearOf sep xs ys = true ↔ ∀ x y, x ∈ xs → y ∈ ys → (x : Int) + sep ≤ y := by
  simp only [clearOf, List.all_eq_true, decide_eq_true_eq]
  norm_cast
  exact forall_congr' fun x => forall_comm.symm

/-- R34: the claims `xs` of a crane above are clear of the candidate's claims `ys`, compared as integers. -/
theorem clearOf_above_iff (sep : Nat) (ys xs : List Nat) :
    clearOf sep ys xs = true ↔ ∀ x y, x ∈ xs → y ∈ ys → (y : Int) + sep ≤ x := by
  rw [clearOf_below_iff, forall_comm]
  exact forall₂_congr fun x y => forall_comm

/-! ### The nearest idle cranes (R34, conditions 3 and 4) -/

theorem inRoster_iff (s : State) (j : CraneNo) : inRoster s j = true ↔ (s.cranes[j]).mode ≠ .absent := by
  simp only [inRoster, decide_eq_true_eq]

theorem inRoster_and_idle_iff (s : State) (j : CraneNo) : (inRoster s j && idle s j) = true ↔ IdleCrane s j := by
  simp only [Bool.and_eq_true, inRoster_iff, idle, Bool.not_eq_true', List.any_eq_false, busy_iff, not_or, IdleCrane]

/-- The head of a list in order is its one least element. -/
theorem head?_eq_some_iff_of_pairwise {α : Type} {R : α → α → Prop} [Std.Refl R] [Std.Antisymm R] {l : List α}
    (ordered : l.Pairwise R) (a : α) : l.head? = some a ↔ a ∈ l ∧ ∀ b ∈ l, R a b := by
  cases l with
  | nil => simp
  | cons x xs =>
    have least : ∀ b ∈ x :: xs, R x b :=
      List.forall_mem_cons.mpr ⟨Std.Refl.refl x, (List.pairwise_cons.mp ordered).1⟩
    rw [List.head?_cons, Option.some_inj]
    constructor
    · rintro rfl
      exact ⟨List.mem_cons_self, least⟩
    · rintro ⟨mem, below⟩
      exact Std.Antisymm.antisymm x a (least a mem) (below x List.mem_cons_self)

theorem cranes_filter_pairwise_le (p : CraneNo → Bool) : (cranes.filter p).Pairwise (· ≤ ·) :=
  (List.pairwise_le_finRange 8).filter p

theorem mem_cranes_filter_idle_iff (s : State) (j : CraneNo) (side : CraneNo → Prop) [DecidablePred side] :
    (j ∈ cranes.filter fun j => decide (side j) && inRoster s j && idle s j) ↔ side j ∧ IdleCrane s j := by
  simp only [cranes, List.mem_filter, List.mem_finRange, true_and, Bool.and_assoc, Bool.and_eq_true (decide _),
    decide_eq_true_eq, inRoster_and_idle_iff]

theorem idleAbove_eq_some_iff (s : State) (k j : CraneNo) :
    idleAbove s k = some j ↔ IdleCrane s j ∧ k < j ∧ ∀ i, IdleCrane s i → k < i → j ≤ i := by
  rw [idleAbove, head?_eq_some_iff_of_pairwise (cranes_filter_pairwise_le _)]
  simp only [mem_cranes_filter_idle_iff s _ (k < ·)]
  tauto

theorem idleBelow_eq_some_iff (s : State) (k j : CraneNo) :
    idleBelow s k = some j ↔ IdleCrane s j ∧ j < k ∧ ∀ i, IdleCrane s i → i < k → i ≤ j := by
  rw [idleBelow, List.getLast?_eq_head?_reverse,
    head?_eq_some_iff_of_pairwise (R := (· ≥ ·)) (List.pairwise_reverse.mpr (cranes_filter_pairwise_le _))]
  simp only [List.mem_reverse, mem_cranes_filter_idle_iff s _ (· < k)]
  tauto

/-! ### The test (R34) -/

/-- R34: the four conditions of the test, on the lists of positions that the model compares. -/
theorem clearance_iff (s : State) (k : CraneNo) (r : MoveRecord) :
    clearance s k r = true ↔
      (∀ j, inRoster s j = true → j < k → clearOf (par s Config.SEP) (moveClaims s j) (claims s r) = true) ∧
      (∀ j, inRoster s j = true → k < j → clearOf (par s Config.SEP) (claims s r) (moveClaims s j) = true) ∧
      (∀ j, idleBelow s k = some j → clearOf (par s Config.SEP) (lastPosition s j) (claims s r) = true) ∧
      (∀ j, idleAbove s k = some j → clearOf (par s Config.SEP) (claims s r) (lastPosition s j) = true) := by
  have imp (a b : Bool) : (!a || b) = true ↔ (a = true → b = true) := by cases a <;> simp
  simp only [clearance, Bool.and_eq_true, List.all_eq_true, Option.all_eq_true, imp, cranes, List.mem_finRange,
    forall_const, decide_eq_true_eq, forall_and, and_assoc]

/-- Settles O13: each of the four conditions of `clearance_iff` is that of R34, once membership in the model's lists is read
as a claim, an idle crane or a last position. -/
theorem clearanceTestMeansSeparation : Obligations.ClearanceTestMeansSeparation := by
  intro s k r
  rw [clearance_iff]
  simp only [clearOf_below_iff _ _ (claims s r), clearOf_above_iff _ (claims s r), inRoster_iff, idleBelow_eq_some_iff,
    idleAbove_eq_some_iff, mem_moveClaims_iff, mem_claims_iff, mem_lastPosition_iff, and_imp, le_sub_iff_add_le]

end Sys2Proof.Machine

/-! PROOFS. The truck lanes (R93, R97): the writing of a slot in the statements' words, and what a rise and a fall of filtered
presence do to a slot. -/

namespace Sys2Proof.Machine

/-! ### The writing of a slot (R97) -/

/-- R97: a lane keeps its signal over the writing of its slot exactly where both slot states show the same signal or the lane
is UNUSED. -/
theorem signal_slot_eq_signal_iff (x : Lane) (y : Slot) :
    { x with slot := y }.signal = x.signal ↔ y.signal = x.slot.signal ∨ x.use = .unused := by
  by_cases unused : x.use = .unused <;> simp [Lane.signal, unused]

/-- The model compares the lane signals before and after; the statements compare the signals of the slot states. -/
theorem setSlot_eq_slotWritten (l : LaneNo) (x : Slot) (s : State) : setSlot l x s = slotWritten l x s := by
  have unchanged : ((modLane l (fun y => { y with slot := x }) s).lanes[l]).signal = (s.lanes[l]).signal ↔
      x.signal = (s.lanes[l]).slot.signal ∨ (s.lanes[l]).use = .unused := by
    rw [modLane_get, if_pos rfl, signal_slot_eq_signal_iff]
  exact if_congr unchanged rfl rfl

/-! ### Presence events on a slot (TABLE 30) -/

/-- Settles O21: one case for each row of TABLE 30. In each the slot state picks the branch of `presenceRise` and of
`presenceFall`, and `setSlot_eq_slotWritten` gives the slot and the gate's mark as R97 has them. -/
theorem presenceActsOnSlot : Obligations.PresenceActsOnSlot := by
  intro l s m
  refine ⟨?freeClear, ?freeStray, ?reserved, ?called, ?arrived, ?worked⟩
  all_goals
    intro slot
    simp only [presenceRise, presenceFall, slot, setSlot_eq_slotWritten, and_self]

end Sys2Proof.Machine

/-! PROOFS. The report queue (R166, R167): which level a newcomer displaces, which report leaves the queue for it, and what
an offered report does to a queue with room and to a full one. -/

namespace Sys2Proof.Machine

/-! ### The level displaced (R167) -/

/-- R167: the lowest level below `v` of a report not being sent. -/
theorem victimLevel_eq_some_iff (v a : Nat) (q : List Report) :
    victimLevel v q = some a ↔
      (∃ r ∈ q, r.inHand = false ∧ r.level < v ∧ r.level = a) ∧
      ∀ r ∈ q, r.inHand = false → r.level < v → a ≤ r.level := by
  rw [victimLevel, List.min?_eq_some_iff, List.forall_mem_map]
  simp [and_assoc]

/-- R167: no report leaves where each is being sent or has a level not below `v`. -/
theorem victimLevel_eq_none_iff (v : Nat) (q : List Report) :
    victimLevel v q = none ↔ ∀ r ∈ q, r.inHand = true ∨ v ≤ r.level := by
  rw [victimLevel, List.min?_eq_none_iff, List.map_eq_nil_iff, List.filter_eq_nil_iff]
  simp [or_iff_not_imp_left]

/-! ### The report displaced (R167) -/

theorem removeLast_eq_none {v : Nat} {q : List Report} (other : ∀ r ∈ q, r.inHand = true ∨ r.level ≠ v) :
    removeLast v q = none := by
  induction q with
  | nil => rfl
  | cons r rs ih =>
    obtain ⟨head, tail⟩ := List.forall_mem_cons.mp other
    have stays : (!r.inHand && decide (r.level = v)) = false := by
      rcases head with sent | level
      · simp [sent]
      · simp [level]
    simp [removeLast, ih tail, stays]

/-- R167: of the reports of the level that are not being sent, the last to have joined is taken out. -/
theorem removeLast_append_cons {v : Nat} {p q : List Report} {x : Report} (free : x.inHand = false)
    (level : x.level = v) (other : ∀ r ∈ q, r.inHand = true ∨ r.level ≠ v) :
    removeLast v (p ++ x :: q) = some (x, p ++ q) := by
  induction p with
  | nil => simp [removeLast, removeLast_eq_none other, free, level]
  | cons r rs ih => rw [List.cons_append, removeLast, ih, List.cons_append]

/-! ### A report is offered (R166, R167) -/

theorem report_of_room {i : Items} {s : State} (room : s.reports.queue.length < 64) :
    report i s = joinReport i s :=
  if_pos room

theorem report_of_no_victim {i : Items} {s : State} (full : 64 ≤ s.reports.queue.length)
    (none_below : victimLevel (classLevel s i.cls) s.reports.queue = none) : report i s = markLost i.cls s := by
  rw [report, if_neg (show ¬_ < Config.reportCapacity from full.not_gt), none_below]
  rfl

theorem report_of_victim {i : Items} {s : State} {a : Nat} {x : Report} {rest : List Report}
    (full : 64 ≤ s.reports.queue.length) (lowest : victimLevel (classLevel s i.cls) s.reports.queue = some a)
    (last : removeLast a s.reports.queue = some (x, rest)) :
    report i s = joinReport i (markLost x.items.cls (modReports (fun q => { q with queue := rest }) s)) := by
  rw [report, if_neg (show ¬_ < Config.reportCapacity from full.not_gt), lowest, Option.bind_some, last]

/-- Settles O27: R166's joining and R167's three cases are the branches of `report`. The displaced report is found by its
level, which `victimLevel` gives, and its place in the queue, by which `removeLast` takes it. -/
theorem reportQueueDisplacesTheLowest : Obligations.ReportQueueDisplacesTheLowest := by
  intro i s v new
  refine ⟨?joins, ?dropped, ?displaces⟩
  case joins =>
    intro room
    rw [report_of_room room]
    rfl
  case dropped =>
    intro full none_below
    rw [report_of_no_victim full ((victimLevel_eq_none_iff _ _).mpr none_below)]
    rfl
  case displaces =>
    intro p q x full split free below lowest later
    have mem : x ∈ s.reports.queue := by simp [split]
    have level : victimLevel v s.reports.queue = some x.level :=
      (victimLevel_eq_some_iff _ _ _).mpr ⟨⟨x, mem, free, below, rfl⟩,
        fun r hr sent _ => (lowest r hr).resolve_left (by simp [sent])⟩
    have taken : removeLast x.level s.reports.queue = some (x, p ++ q) :=
      split ▸ removeLast_append_cons free rfl fun r hr => (later r hr).imp_right ne_of_gt
    rw [report_of_victim full level taken]
    rfl

end Sys2Proof.Machine

/-! PROOFS. The laws along a run: each law holds at power-on and is kept by every change of Laws/Change.lean, so by every
step. One section for each law. -/

namespace Sys2Proof.Machine

/-! ### From changes to steps -/

/-- A step without a command is a tick, and a step with one is a sequence of changes; LOAD_AREAS alone loads areas. -/
theorem step_reach {s t : State} (h : step s = .next t) :
    t = tick s ∨ ∃ rest, Reach (s.pending.head? = some .loadAreas) { s with pending := rest } t := by
  unfold step at h
  split at h
  · cases h; exact .inl rfl
  · rename_i c rest hp
    have loads : (s.pending.head? = some .loadAreas) = (c = .loadAreas) := by simp [hp]
    exact .inr ⟨rest, loads ▸ exec_reach c _ t h⟩

/-- A law that reads neither the commands that wait nor the clock, and that every change keeps, is kept by every step. -/
theorem step_keeps {law : State → Prop} {s t : State} (pending : ∀ u q, law u → law { u with pending := q })
    (clock : ∀ u, law u → law (tickClock u))
    (change : ∀ u v, Change (s.pending.head? = some .loadAreas) u v → law u → law v) (h : step s = .next t)
    (hs : law s) : law t := by
  rcases step_reach h with rfl | ⟨rest, reach⟩
  · clear h
    unfold tick; split
    · exact hs
    · exact clock s hs
  · clear h
    induction reach with
    | refl => exact pending s rest hs
    | tail _ last ih => exact change _ _ last ih

/-! ### The move table (R1) -/

theorem PoolLaw.congr {s t : State} (h : PoolLaw s) (queues : t.queues = s.queues) : PoolLaw t := by
  have pools : pool t = pool s := by simp only [pool, queues]
  exact ⟨pools ▸ h.pool_le, queues ▸ h.queue_le, pools ▸ h.unique⟩

theorem pool_numbers (s : State) : (pool s).map (·.number) = cranes.flatMap (queueNumbers s) := by
  simp only [pool, List.map_flatMap]; rfl

theorem flatMap_subperm {α β : Type} {f g : α → List β} (h : ∀ a, (f a).Subperm (g a)) :
    ∀ l : List α, (l.flatMap f).Subperm (l.flatMap g)
  | [] => .refl _
  | a :: l => by
    rw [List.flatMap_cons, List.flatMap_cons]
    exact (h a).append (flatMap_subperm h l)

/-- Queues that lose numbers, and gain none, keep within their capacities. -/
theorem PoolLaw.of_subperm {s t : State} (h : PoolLaw s) (sub : ∀ k, (queueNumbers t k).Subperm (queueNumbers s k)) :
    PoolLaw t := by
  have all : ((pool t).map (·.number)).Subperm ((pool s).map (·.number)) := by
    rw [pool_numbers, pool_numbers]; exact flatMap_subperm sub _
  refine ⟨?_, fun k => ?_, ?_⟩
  · simpa using all.length_le.trans (by simpa using h.pool_le)
  · simpa [queueNumbers] using (sub k).length_le.trans (by simpa [queueNumbers] using h.queue_le k)
  · obtain ⟨l, perm, sublist⟩ := all
    exact perm.nodup_iff.mp (h.unique.sublist sublist)

theorem PoolLaw.of_empty {s : State} (h : ∀ k : CraneNo, s.queues[k] = []) : PoolLaw s := by
  have none : pool s = [] := by simp [pool, h]
  exact ⟨by simp [none], fun k => by simp [h], by simp [none]⟩

theorem areaLoaded_moves (a : AreaNo) (d : Deck) (flag : Bool) (s : State) (k : CraneNo) :
    SameMoves s.queues[k] (areaLoaded a d flag s).queues[k] := by
  unfold areaLoaded; dsimp only; split
  · exact .refl _
  · refine .trans ?_ (setDeck_moves ..); exact .refl _

theorem jobDone_moves (g : GangNo) (j : Job) (s : State) (k : CraneNo) :
    SameMoves s.queues[k] (jobDone g j s).queues[k] :=
  (setDeck_moves ..).trans (setGangPresent_moves ..)

theorem jobLeft_moves (g : GangNo) (j : Job) (m : GangMark) (s : State) (k : CraneNo) :
    SameMoves s.queues[k] (jobLeft g j m s).queues[k] :=
  (setDeck_setJobs_moves ..).trans (setGangPresent_moves ..)

/-- One new record in one queue: the pool holds it beside what it held. -/
theorem pool_setQueue_perm {s : State} {k : CraneNo} {r : MoveRecord} {q : List MoveRecord}
    (perm : q.Perm (r :: s.queues[k])) : (pool (setQueue k q s)).Perm (r :: pool s) := by
  obtain ⟨a, b, split⟩ := List.append_of_mem (List.mem_finRange k)
  have once : k ∉ a ∧ k ∉ b := by
    have nodup := List.nodup_finRange 8
    rw [split, List.nodup_middle, List.nodup_cons, List.mem_append, not_or] at nodup
    exact nodup.1
  have other : ∀ l : List CraneNo, k ∉ l →
      (l.flatMap fun j => (setQueue k q s).queues[j]) = l.flatMap fun j => s.queues[j] := fun l hl =>
    List.flatMap_congr fun j hj => by
      rw [setQueue_get, if_neg]; rintro rfl; exact hl hj
  have this : (setQueue k q s).queues[k] = q := by rw [setQueue_get, if_pos rfl]
  simp only [pool, cranes, split, List.flatMap_append, List.flatMap_cons, other a once.1, other b once.2, this]
  exact ((perm.append_right _).append_left _).trans List.perm_middle

theorem inPool_eq_false_iff (s : State) (n : MoveNo) : inPool s n = false ↔ n ∉ (pool s).map (·.number) := by
  simp only [inPool, findMove, findIn, pool, cranes, Option.isSome_eq_false_iff, Option.isNone_iff_eq_none,
    List.findSome?_eq_none_iff, Option.map_eq_none_iff, List.find?_eq_none, decide_eq_true_eq, List.mem_map,
    List.mem_flatMap, not_exists, not_and]
  exact ⟨fun h r ⟨k, hk, hr⟩ => h k hk r hr, fun h k hk r hr => h r ⟨k, hk, hr⟩⟩

theorem Change.pool {p : Prop} {s t : State} (h : Change p s t) (law : PoolLaw s) : PoolLaw t := by
  cases h with
  | quiet h => exact law.of_subperm fun k => (h.moves k).numbers
  | poweredOn => exact .of_empty fun k => by simp [State.powerOn]
  | coordinatorEmptied => exact .of_empty fun k => by simp
  | movesRewritten f _ number =>
    refine law.of_subperm fun k => ?_
    simp only [queueNumbers, mapMoves_get, List.map_map]
    have same : (s.queues[k]).map ((·.number) ∘ f) = (s.queues[k]).map (·.number) :=
      List.map_congr_left fun r _ => number r
    rw [same]
  | queueKept k q _ sub =>
    refine law.of_subperm fun j => ?_
    simp only [queueNumbers, setQueue_get]
    split
    · rename_i e; subst e; exact sub
    · exact .refl _
  | moveAdded k r q _ perm new room queueRoom =>
    have all := pool_setQueue_perm (s := s) (k := k) perm
    refine ⟨?_, fun j => ?_, ?_⟩
    · rw [all.length_eq]; exact room
    · rw [setQueue_get]; split
      · rw [perm.length_eq]; exact queueRoom
      · exact law.queue_le j
    · rw [(all.map _).nodup_iff, List.map_cons, List.nodup_cons]
      exact ⟨(inPool_eq_false_iff s _).mp new, law.unique⟩
  | loaded a d flag => exact law.of_subperm fun k => (areaLoaded_moves a d flag s k).numbers
  | done g j => exact law.of_subperm fun k => (jobDone_moves g j s k).numbers
  | left g j m => exact law.of_subperm fun k => (jobLeft_moves g j m s k).numbers
  | _ => exact law.congr (by simp [leaveReset, lowerPositions])

end Sys2Proof.Machine

namespace Sys2Proof.Machine

/-! ### The queues of the telegram side (R142, R145, R158, R159, R166) -/

theorem removeLast_length {v : Nat} : ∀ {q rest : List Report} {x : Report},
    removeLast v q = some (x, rest) → rest.length + 1 = q.length
  | [], _, _, h => by cases h
  | r :: rs, rest, x, h => by
    unfold removeLast at h
    split at h
    · rename_i y rs' hy
      cases h
      simpa using removeLast_length hy
    · split at h
      · cases h; rfl
      · cases h

/-- A report offered to the queue keeps it within its capacity, as it displaces another where the queue is full. -/
theorem report_length (i : Items) (s : State) (h : s.reports.queue.length ≤ 64) :
    (report i s).reports.queue.length ≤ 64 := by
  unfold report; split
  · rename_i room
    simpa [joinReport] using (show _ < 64 from room)
  · split
    · rename_i x rest hx
      obtain ⟨v, -, removed⟩ := Option.bind_eq_some_iff.mp hx
      have len := removeLast_length removed
      simp only [joinReport, markLost, modReports_reports, List.length_append, List.length_singleton]
      omega
    · exact h

theorem setDeck_reports (a : AreaNo) (d : Deck) (c : AreaCause) (s : State) :
    (setDeck a d c s).reports = (report (.area a s.areas[a].deck d c) (modArea a (fun x => { x with deck := d }) s)).reports := by
  simp only [setDeck, reevaluate_reports]

theorem setDeck_length (a : AreaNo) (d : Deck) (c : AreaCause) (s : State) (h : s.reports.queue.length ≤ 64) :
    (setDeck a d c s).reports.queue.length ≤ 64 := by
  rw [setDeck_reports]; exact report_length _ _ h

theorem Quiet.reports_length {s t : State} (h : Quiet s t) (le : s.reports.queue.length ≤ 64) :
    t.reports.queue.length ≤ 64 := by
  cases h with
  | reported i => exact report_length _ _ le
  | jobCreated a k c => exact setDeck_length _ _ _ _ le
  | jobWithdrawn a k c => exact setDeck_length _ _ _ _ le
  | jobGiven g j =>
    refine report_length _ _ ?_
    rw [setGangPresent_reports]
    exact setDeck_length _ _ _ _ le
  | _ => simpa using le

theorem areaLoaded_length (a : AreaNo) (d : Deck) (flag : Bool) (s : State) (h : s.reports.queue.length ≤ 64) :
    (areaLoaded a d flag s).reports.queue.length ≤ 64 := by
  unfold areaLoaded; dsimp only; split
  · exact h
  · exact setDeck_length _ _ _ _ h

theorem jobDone_length (g : GangNo) (j : Job) (s : State) (h : s.reports.queue.length ≤ 64) :
    (jobDone g j s).reports.queue.length ≤ 64 := by
  rw [jobDone, modGang_reports, setGangPresent_reports]
  exact setDeck_length _ _ _ _ h

theorem jobLeft_length (g : GangNo) (j : Job) (m : GangMark) (s : State) (h : s.reports.queue.length ≤ 64) :
    (jobLeft g j m s).reports.queue.length ≤ 64 := by
  rw [jobLeft, modGang_reports, returnJob, setGangPresent_reports]
  exact setDeck_length _ _ _ _ h

theorem bufferLaw_iff (s : State) :
    BufferLaw s ↔ s.reports.queue.length ≤ 64 ∧ UplinkSound s.uplink ∧ FieldSound s.field :=
  ⟨fun h => ⟨h.reports_le, ⟨h.inbound_le, h.negated, h.asserted⟩, ⟨h.forward_le, h.plan_le⟩⟩,
    fun ⟨reports, uplink, field⟩ =>
      ⟨reports, uplink.inbound, field.forward, field.plan, uplink.negated, uplink.asserted⟩⟩

theorem powerOn_buffer (q : List Instr) (n : Nat) (asserted closed : Bool) : BufferLaw (State.powerOn q n asserted closed) := by
  constructor <;> simp [State.powerOn, Reports.powerOn, Uplink.powerOn, Field.powerOn]

/-- What the writing of the lashing tables at LOAD_AREAS, at a DONE and at a gang's leaving keeps. -/
theorem areaLoaded_keeps (a : AreaNo) (d : Deck) (flag : Bool) (s : State) : Keeps s (areaLoaded a d flag s) := by
  unfold areaLoaded; dsimp only; split <;> constructor <;> simp

theorem jobDone_keeps (g : GangNo) (j : Job) (s : State) : Keeps s (jobDone g j s) := by
  constructor <;> simp [jobDone]

theorem jobLeft_keeps (g : GangNo) (j : Job) (m : GangMark) (s : State) : Keeps s (jobLeft g j m s) := by
  constructor <;> simp [jobLeft, returnJob]

theorem Keeps.buffer {s t : State} (h : Keeps s t) (law : BufferLaw s) (reports : t.reports.queue.length ≤ 64) :
    BufferLaw t := by
  obtain ⟨-, uplink, field⟩ := (bufferLaw_iff s).mp law
  exact (bufferLaw_iff t).mpr ⟨reports, h.uplink ▸ uplink, h.field ▸ field⟩

theorem Change.buffer {p : Prop} {s t : State} (h : Change p s t) (law : BufferLaw s) : BufferLaw t := by
  have le := law.reports_le
  obtain ⟨-, uplink, field⟩ := (bufferLaw_iff s).mp law
  cases h with
  | quiet h => exact h.keeps.buffer law (h.reports_length le)
  | poweredOn => exact powerOn_buffer ..
  | loaded a d flag => exact (areaLoaded_keeps ..).buffer law (areaLoaded_length _ _ _ _ le)
  | done g j => exact (jobDone_keeps ..).buffer law (jobDone_length _ _ _ le)
  | left g j m => exact (jobLeft_keeps ..).buffer law (jobLeft_length _ _ _ _ le)
  | fieldWritten f _ sound => exact (bufferLaw_iff _).mpr ⟨le, uplink, sound field⟩
  | uplinkWritten f _ sound => exact (bufferLaw_iff _).mpr ⟨le, sound uplink, field⟩
  | reportsWritten f _ shrinks => exact (bufferLaw_iff _).mpr ⟨shrinks.trans le, uplink, field⟩
  | coordinatorEmptied =>
    exact (bufferLaw_iff _).mpr ⟨by simp, uplink.plain rfl rfl, ⟨by simp, field.plan⟩⟩
  | _ => exact (bufferLaw_iff _).mpr ⟨le, uplink, field⟩

/-! ### Parameters and smoothed times (R46, R51, R174) -/

theorem ParamLaw.congr {s t : State} (h : ParamLaw s) (params : t.params = s.params) (cycles : t.cycles = s.cycles) :
    ParamLaw t := by
  cases s; cases t; cases params; cases cycles; exact ⟨h.range, h.cycle, h.wind, h.smoothed⟩

theorem initialCycle_range (p : Vector Nat 40) (h : p[Config.CYCLE_MIN] ≤ p[Config.CYCLE_MAX]) :
    (16 * p[Config.CYCLE_MIN] ≤ (initialCycle p).single ∧ (initialCycle p).single ≤ 16 * p[Config.CYCLE_MAX]) ∧
      16 * p[Config.CYCLE_MIN] ≤ (initialCycle p).dual ∧ (initialCycle p).dual ≤ 16 * p[Config.CYCLE_MAX] :=
  ⟨clamp_le (by omega), clamp_le (by omega)⟩

theorem defaultParams_range : ∀ i : Config.Param,
    Config.paramTable[i].low ≤ defaultParams[i] ∧ defaultParams[i] ≤ Config.paramTable[i].high := by decide

theorem powerOn_param (q : List Instr) (n : Nat) (asserted closed : Bool) : ParamLaw (State.powerOn q n asserted closed) where
  range := defaultParams_range
  cycle := show defaultParams[Config.CYCLE_MIN] ≤ defaultParams[Config.CYCLE_MAX] by decide
  wind := show defaultParams[Config.WIND_RESUME] + 10 ≤ defaultParams[Config.WIND_STOP] by decide
  smoothed k := by
    obtain ⟨single, dual⟩ := initialCycle_range defaultParams (by decide)
    simp only [State.powerOn, Fin.getElem_fin, Vector.getElem_replicate]
    exact ⟨single.1, single.2, dual⟩

theorem Change.param {p : Prop} {s t : State} (h : Change p s t) (law : ParamLaw s) : ParamLaw t := by
  cases h with
  | quiet h => exact law.congr h.keeps.params h.keeps.cycles
  | poweredOn => exact powerOn_param ..
  | resetLeft =>
    refine ⟨law.range, law.cycle, law.wind, fun k => ?_⟩
    obtain ⟨single, dual⟩ := initialCycle_range s.params law.cycle
    simp only [leaveReset, Fin.getElem_fin, Vector.getElem_replicate]
    exact ⟨single.1, single.2, dual⟩
  | settingsWritten _ _ _ keeps => exact keeps law
  | loaded a d flag => exact law.congr (areaLoaded_keeps ..).params (areaLoaded_keeps ..).cycles
  | done g j => exact law.congr (jobDone_keeps ..).params (jobDone_keeps ..).cycles
  | left g j m => exact law.congr (jobLeft_keeps ..).params (jobLeft_keeps ..).cycles
  | _ => exact law.congr (by simp [lowerPositions]) (by simp [lowerPositions])

/-- Settles O3: each law is kept by every change of Laws/Change.lean, and a step is a sequence of changes. -/
theorem capacityAndRangeLawsKept : Obligations.CapacityAndRangeLawsKept := by
  intro s t h
  refine ⟨?pool, ?buffer, ?param⟩
  case pool => exact step_keeps (fun _ _ l => l.congr rfl) (fun _ l => l.congr rfl) (fun _ _ => Change.pool) h
  case buffer =>
    exact step_keeps (fun u _ l => (bufferLaw_iff _).mpr ((bufferLaw_iff u).mp l))
      (fun u l => (bufferLaw_iff _).mpr ((bufferLaw_iff u).mp l)) (fun _ _ => Change.buffer) h
  case param => exact step_keeps (fun _ _ l => l.congr rfl rfl) (fun _ l => l.congr rfl rfl) (fun _ _ => Change.param) h

end Sys2Proof.Machine

namespace Sys2Proof.Machine

/-! ### The berth (R130) -/

theorem Change.berth {p : Prop} {s t : State} (h : Change p s t) (law : BerthLaw s) : BerthLaw t := by
  have keep : t.berth = s.berth → BerthLaw t := fun e => by unfold BerthLaw; rw [e]; exact law
  cases h with
  | quiet h => exact keep h.keeps.berth
  | poweredOn => simp [BerthLaw, State.powerOn, Berth.powerOn, Causes.empty]
  | berthWritten f _ sound => exact sound law
  | coordinatorEmptied => simp [BerthLaw, Causes.empty]
  | loaded a d flag => exact keep (areaLoaded_keeps ..).berth
  | done g j => exact keep (jobDone_keeps ..).berth
  | left g j m => exact keep (jobLeft_keeps ..).berth
  | _ => exact keep (by simp [leaveReset, lowerPositions])

/-! ### The slots of the cranes (R36, R126) -/

theorem craneSlotLaw_iff (s : State) : CraneSlotLaw s ↔ ∀ k : CraneNo, SlotsSound s.cranes[k] :=
  ⟨fun h k => ⟨h.staged_active k, h.withdraw_unstaged k⟩, fun h => ⟨fun k => (h k).staged, fun k => (h k).withdraw⟩⟩

theorem SlotsSound.plain {c d : Crane} (h : SlotsSound c) (active : d.active = c.active) (staged : d.staged = c.staged)
    (directive : d.directive = c.directive) : SlotsSound d :=
  ⟨by rw [staged, active]; exact h.staged, by unfold withdrawPending; rw [staged, directive]; exact h.withdraw⟩

theorem SlotsSound.of_unstaged {c : Crane} (h : c.staged = none) : SlotsSound c := ⟨by simp [h], fun _ => h⟩

theorem powerOn_cranes (q : List Instr) (n : Nat) (asserted closed : Bool) (k : CraneNo) :
    (State.powerOn q n asserted closed).cranes[k] = Crane.powerOn := by simp [State.powerOn]

theorem lowerPositions_get (s : State) (k : CraneNo) : (lowerPositions s).cranes[k] =
    { s.cranes[k] with position := s.cranes[k].position.map fun p => min p (par s Config.QUAY_LEN) } := by
  simp [lowerPositions]

theorem emptied_crane (s : State) (k : CraneNo) : (emptied s).cranes[k] = (s.cranes[k]).reset := by simp

theorem areaLoaded_cranes (a : AreaNo) (d : Deck) (flag : Bool) (s : State) : (areaLoaded a d flag s).cranes = s.cranes := by
  unfold areaLoaded; dsimp only; split <;> simp

theorem jobLeft_cranes (g : GangNo) (j : Job) (m : GangMark) (s : State) : (jobLeft g j m s).cranes = s.cranes := by
  simp [jobLeft, returnJob]

/-- A release to ACTIVE or STAGED, alone of the quiet steps, fills a slot; both meet the release condition. -/
theorem Quiet.slots {s t : State} (h : Quiet s t) (j : CraneNo) (sound : SlotsSound s.cranes[j]) :
    SlotsSound t.cranes[j] := by
  have keep : t.cranes = s.cranes → SlotsSound t.cranes[j] := fun e => e ▸ sound
  cases h with
  | agreed k =>
    rw [testAgreement, modCrane_get]; split
    · rename_i e; subst e; exact sound.plain rfl rfl rfl
    · exact sound
  | activated k r _ cond =>
    rw [toActive, modCrane_get]; split
    · rename_i e; subst e
      simp only [releaseCondition, Bool.and_eq_true, Option.isNone_iff_eq_none] at cond
      exact .of_unstaged cond.2
    · exact sound
  | staged k r _ cond active =>
    rw [toStaged, modCrane_get]; split
    · rename_i e; subst e
      simp only [releaseCondition, craneOpen, Bool.and_eq_true, Bool.not_eq_true'] at cond
      obtain ⟨⟨⟨⟨⟨-, free⟩, -⟩, -⟩, -⟩, -⟩ := cond
      exact ⟨fun _ => active, fun pending => absurd (free.symm.trans pending) (by simp)⟩
    · exact sound
  | jobCreated a k c => exact keep (setDeck_cranes ..)
  | jobWithdrawn a k c => exact keep (setDeck_cranes ..)
  | jobGiven g j => exact keep (giveJob_lash ..).cranes
  | _ => exact keep (by simp)

theorem Change.slots {p : Prop} {s t : State} (h : Change p s t) (j : CraneNo) (sound : SlotsSound s.cranes[j]) :
    SlotsSound t.cranes[j] := by
  have keep : t.cranes = s.cranes → SlotsSound t.cranes[j] := fun e => e ▸ sound
  cases h with
  | quiet h => exact h.slots j sound
  | poweredOn => rw [powerOn_cranes]; exact .of_unstaged rfl
  | craneWritten k f _ change =>
    rw [modCrane_get]; split
    · rename_i e; subst e; exact change.slots sound
    · exact sound
  | rosterWritten k e f _ _ slots =>
    rw [modCrane_get]; split
    · rename_i e; subst e; exact slots sound
    · exact sound
  | positionsLowered => rw [lowerPositions_get]; exact sound.plain rfl rfl rfl
  | coordinatorEmptied => rw [emptied_crane]; exact .of_unstaged rfl
  | loaded a d flag => exact keep (areaLoaded_cranes ..)
  | left g j m => exact keep (jobLeft_cranes ..)
  | _ => exact keep (by simp [leaveReset, jobDone])

/-! ### Requests (R87, R88) -/

theorem RequestLaw.congr {s t : State} (h : RequestLaw s) (lanes : t.lanes = s.lanes) : RequestLaw t :=
  ⟨lanes ▸ h.other, lanes ▸ h.single⟩

/-- Lanes on which no request is new, and the owner of each that keeps one stays, keep the law. -/
theorem RequestLaw.of_kept {s t : State} (h : RequestLaw s) (kept : ∀ (l : LaneNo) (q : Request),
    (t.lanes[l]).request = some q → (s.lanes[l]).request = some q ∧ (t.lanes[l]).owner = (s.lanes[l]).owner) :
    RequestLaw t where
  other l q hq := by
    obtain ⟨before, owner⟩ := kept l q hq
    rw [owner]; exact h.other l q before
  single l l' q q' hq hq' := h.single l l' q q' (kept l q hq).1 (kept l' q' hq').1

theorem LaneChange.kept {x y : Lane} (h : LaneChange x y) {q : Request} (hq : y.request = some q) :
    x.request = some q ∧ y.owner = x.owner := by
  rcases h with none | ⟨request, owner⟩
  · rw [none] at hq; cases hq
  · exact ⟨request ▸ hq, owner⟩

/-- R88: the one request that is raised stands on a lane of the other crane, and none of its crane stood before. -/
theorem raiseRequest_law (k : CraneNo) (n : MoveNo) (s : State) (h : RequestLaw s) : RequestLaw (raiseRequest k n s) := by
  unfold raiseRequest; split
  · exact h
  · rename_i standing
    have free : ∀ (l : LaneNo) (q : Request), (s.lanes[l]).request = some q → q.crane ≠ k := fun l q hq e => by
      refine standing (List.any_eq_true.mpr ⟨l, List.mem_finRange l, ?_⟩)
      rw [hq, Option.any_some, decide_eq_true_eq]; exact e
    split
    · rename_i l found
      have owned := List.find?_some found
      simp only [Bool.and_eq_true, Option.any_eq_true, decide_eq_true_eq] at owned
      obtain ⟨-, j, owner, ne⟩ := owned
      refine ⟨fun m q hq => ?_, fun m m' q q' hq hq' e => ?_⟩
      · by_cases e : m = l
        · subst e
          rw [modLane_get, if_pos rfl] at hq ⊢
          cases hq; exact ⟨j, owner, ne⟩
        · rw [modLane_get, if_neg e] at hq ⊢
          exact h.other m q hq
      · rw [modLane_get] at hq hq'
        split at hq <;> split at hq'
        · rename_i em em'; exact em.trans em'.symm
        · cases hq; exact absurd e.symm (free m' q' hq')
        · cases hq'; exact absurd e (free m q hq)
        · exact h.single m m' q q' hq hq' e
    · exact h

theorem Quiet.request {s t : State} (h : Quiet s t) (law : RequestLaw s) : RequestLaw t := by
  cases h with
  | slotSet l x =>
    refine law.of_kept fun m q hq => ?_
    by_cases e : m = l
    · subst e; rw [setSlot_get, if_pos rfl] at hq ⊢; exact ⟨hq, rfl⟩
    · rw [setSlot_get, if_neg e] at hq ⊢; exact ⟨hq, rfl⟩
  | unrequested p =>
    refine law.of_kept fun m q hq => ?_
    rw [withdrawRequests, mapLanes_get] at hq ⊢
    exact ⟨(Option.filter_eq_some_iff.mp hq).1, rfl⟩
  | raised k n => exact raiseRequest_law k n s law
  | owned k l =>
    refine law.of_kept fun m q hq => ?_
    by_cases e : m = l
    · subst e
      rw [modLane_get, if_pos rfl] at hq ⊢
      obtain ⟨j, owner, -⟩ := law.other m q hq
      exact ⟨hq, by dsimp only; rw [owner]; simp⟩
    · rw [modLane_get, if_neg e] at hq ⊢; exact ⟨hq, rfl⟩
  | jobCreated a k c => exact law.congr (setDeck_lanes ..)
  | jobWithdrawn a k c => exact law.congr (setDeck_lanes ..)
  | _ => exact law.congr (by simp)

theorem Change.request {p : Prop} {s t : State} (h : Change p s t) (law : RequestLaw s) : RequestLaw t := by
  cases h with
  | quiet h => exact h.request law
  | poweredOn => exact law.of_kept fun l q hq => by simp [State.powerOn, Lane.powerOn] at hq
  | coordinatorEmptied => exact law.of_kept fun l q hq => by simp [Lane.reset] at hq
  | laneWritten l f _ change =>
    refine law.of_kept fun m q hq => ?_
    by_cases e : m = l
    · subst e; rw [modLane_get, if_pos rfl] at hq ⊢; exact change.kept hq
    · rw [modLane_get, if_neg e] at hq ⊢; exact ⟨hq, rfl⟩
  | lanesWritten f _ change =>
    refine law.of_kept fun m q hq => ?_
    rw [mapLanes_get] at hq ⊢
    exact (change _).kept hq
  | loaded a d flag => exact law.congr (by unfold areaLoaded; dsimp only; split <;> simp)
  | left g j m => exact law.congr (by simp [jobLeft, returnJob])
  | _ => exact law.congr (by simp [leaveReset, lowerPositions, jobDone])

/-! ### Stations (R141, R150) -/

theorem Change.station {p : Prop} {s t : State} (h : Change p s t) (law : StationLaw s) : StationLaw t := by
  have keep : t.stations = s.stations → StationLaw t := fun e => by unfold StationLaw; rw [e]; exact law
  cases h with
  | quiet h => exact keep h.keeps.stations
  | poweredOn => intro st; simp [State.powerOn]
  | coordinatorEmptied => intro st; simp
  | stationWritten x f _ sound =>
    intro st
    rw [modStation_get]; split
    · exact sound (law x)
    · exact law st
  | loaded a d flag => exact keep (areaLoaded_keeps ..).stations
  | done g j => exact keep (jobDone_keeps ..).stations
  | left g j m => exact keep (jobLeft_keeps ..).stations
  | _ => exact keep (by simp [leaveReset, lowerPositions])

/-! ### The roster (R25) -/

theorem rosterLaw_iff (s : State) :
    RosterLaw s ↔ ∀ k : CraneNo, ((s.cranes[k]).mode = .absent ↔ s.roster[k] = none) ∧ ModeSound s.cranes[k] :=
  ⟨fun h k => ⟨h.absent k, h.idle k⟩, fun h => ⟨fun k => (h k).1, fun k => (h k).2⟩⟩

theorem RosterLaw.congr {s t : State} (h : RosterLaw s) (cranes : t.cranes = s.cranes) (roster : t.roster = s.roster) :
    RosterLaw t := ⟨cranes ▸ roster ▸ h.absent, cranes ▸ h.idle⟩

/-- Cranes that keep mode and directive, beside the same roster, keep the law. -/
theorem RosterLaw.of_kept {s t : State} (h : RosterLaw s) (roster : t.roster = s.roster)
    (kept : ∀ k : CraneNo, (t.cranes[k]).mode = (s.cranes[k]).mode ∧
      ((t.cranes[k]).directive = (s.cranes[k]).directive ∨ (t.cranes[k]).directive = none)) : RosterLaw t where
  absent k := by rw [(kept k).1, roster]; exact h.absent k
  idle k hk := by
    obtain ⟨mode, same | none⟩ := kept k
    · rw [same]; exact h.idle k (mode ▸ hk)
    · exact none

theorem Change.roster {p : Prop} {s t : State} (h : Change p s t) (law : RosterLaw s) : RosterLaw t := by
  cases h with
  | quiet h => exact law.of_kept h.keeps.roster fun k => ⟨(h.crane k).mode, .inl (h.crane k).directive⟩
  | poweredOn =>
    refine (rosterLaw_iff _).mpr fun k => ?_
    rw [powerOn_cranes]
    exact ⟨by simp [State.powerOn, Crane.powerOn], fun _ => rfl⟩
  | craneWritten k f _ change =>
    refine (rosterLaw_iff _).mpr fun j => ?_
    rw [modCrane_get, modCrane_roster]; split
    · rename_i e; subst e
      exact ⟨(change.mode (law.idle j)).trans (law.absent j), change.sound (law.idle j)⟩
    · exact ⟨law.absent j, law.idle j⟩
  | rosterWritten k e f _ mode _ sound =>
    refine (rosterLaw_iff _).mpr fun j => ?_
    rw [modCrane_get, modCrane_roster, setRoster_get]; split
    · rename_i e; subst e; exact ⟨mode law, sound (law.idle j)⟩
    · exact ⟨law.absent j, law.idle j⟩
  | positionsLowered =>
    exact law.of_kept rfl fun k => by rw [lowerPositions_get]; exact ⟨rfl, .inl rfl⟩
  | coordinatorEmptied => exact law.of_kept rfl fun k => by rw [emptied_crane]; exact ⟨rfl, .inr rfl⟩
  | loaded a d flag => exact law.congr (areaLoaded_cranes ..) (areaLoaded_keeps ..).roster
  | left g j m => exact law.congr (jobLeft_cranes ..) (jobLeft_keeps ..).roster
  | _ => exact law.congr (by simp [leaveReset, jobDone]) (by simp [leaveReset, jobDone])

/-- Settles O4: each law is kept by every change of Laws/Change.lean, and a step is a sequence of changes. -/
theorem berthCraneAndStationLawsKept : Obligations.BerthCraneAndStationLawsKept := by
  intro s t h
  refine ⟨?berth, ?slots, ?request, ?station, ?roster⟩
  case berth => exact step_keeps (fun _ _ l => l) (fun _ l => l) (fun _ _ => Change.berth) h
  case slots =>
    refine step_keeps (fun _ _ l => ⟨l.staged_active, l.withdraw_unstaged⟩)
      (fun _ l => ⟨l.staged_active, l.withdraw_unstaged⟩) (fun u v change l => ?_) h
    exact (craneSlotLaw_iff v).mpr fun k => change.slots k ((craneSlotLaw_iff u).mp l k)
  case request => exact step_keeps (fun _ _ l => l.congr rfl) (fun _ l => l.congr rfl) (fun _ _ => Change.request) h
  case station => exact step_keeps (fun _ _ l => l) (fun _ l => l) (fun _ _ => Change.station) h
  case roster => exact step_keeps (fun _ _ l => l.congr rfl rfl) (fun _ l => l.congr rfl rfl) (fun _ _ => Change.roster) h

end Sys2Proof.Machine

namespace Sys2Proof.Machine

/-! ### The lashing tables (R108) -/

/-- R108 at one area: its queued job, the gang sent to it and the gang present on it are as its deck state says. -/
structure LashAt (s : State) (a : AreaNo) : Prop where
  queued : ∀ k : JobKind, (⟨a, k⟩ : Job) ∈ s.jobs ↔ (s.areas[a]).deck = k.waiting
  worked : ∀ k : JobKind, (s.areas[a]).deck = k.underWay ↔ ∃ g : GangNo, (s.gangs[g]).state.job = some ⟨a, k⟩
  present : ∀ g : GangNo, (s.areas[a]).gang = some g ↔ ∃ k : JobKind, (s.gangs[g]).state.job = some ⟨a, k⟩

theorem lashLaw_iff (s : State) : LashLaw s ↔ (s.jobs.map (·.area)).Nodup ∧ ∀ a, LashAt s a :=
  ⟨fun h => ⟨h.single, fun a => ⟨h.queued a, h.worked a, h.present a⟩⟩,
    fun ⟨single, at'⟩ => ⟨single, fun a => (at' a).queued, fun a => (at' a).worked, fun a => (at' a).present⟩⟩

theorem LashLaw.congr {s t : State} (h : LashLaw s) (areas : ∀ a : AreaNo, (t.areas[a]).deck = (s.areas[a]).deck ∧
    (t.areas[a]).gang = (s.areas[a]).gang) (jobs : t.jobs = s.jobs)
    (gangs : ∀ g : GangNo, (t.gangs[g]).state.job = (s.gangs[g]).state.job) : LashLaw t where
  single := jobs ▸ h.single
  queued a k := by rw [jobs, (areas a).1]; exact h.queued a k
  worked a k := by simp only [(areas a).1, gangs]; exact h.worked a k
  present a g := by simp only [(areas a).2, gangs]; exact h.present a g

theorem LashLaw.same {s t : State} (h : LashLaw s) (areas : t.areas = s.areas) (jobs : t.jobs = s.jobs)
    (gangs : t.gangs = s.gangs) : LashLaw t :=
  h.congr (fun _ => areas ▸ ⟨rfl, rfl⟩) jobs fun _ => gangs ▸ rfl

/-- A change at one area keeps the law where it holds at that area again and the jobs name each area once. -/
theorem LashLaw.of_at {s t : State} (h : LashLaw s) (a : AreaNo) (single : (t.jobs.map (·.area)).Nodup)
    (areas : ∀ b ≠ a, t.areas[b] = s.areas[b]) (jobs : ∀ j : Job, j.area ≠ a → (j ∈ t.jobs ↔ j ∈ s.jobs))
    (gangs : ∀ (g : GangNo) (j : Job), j.area ≠ a →
      ((t.gangs[g]).state.job = some j ↔ (s.gangs[g]).state.job = some j)) (here : LashAt t a) : LashLaw t := by
  refine (lashLaw_iff t).mpr ⟨single, fun b => ?_⟩
  by_cases e : b = a
  · exact e ▸ here
  · refine ⟨fun k => ?_, fun k => ?_, fun g => ?_⟩
    · rw [jobs _ e, areas b e]; exact h.queued b k
    · simp only [areas b e, gangs _ ⟨b, k⟩ e]; exact h.worked b k
    · simp only [areas b e, gangs g ⟨b, _⟩ e]; exact h.present b g

/-! #### The deck states -/

theorem JobKind.waiting_inj {k k' : JobKind} : k.waiting = k'.waiting ↔ k = k' := by cases k <;> cases k' <;> decide
theorem JobKind.underWay_inj {k k' : JobKind} : k.underWay = k'.underWay ↔ k = k' := by cases k <;> cases k' <;> decide
theorem JobKind.waiting_ne_underWay (k k' : JobKind) : k.waiting ≠ k'.underWay := by cases k <;> cases k' <;> decide

/-- A deck state of no job: LASHED or OPEN. -/
def Deck.rests (d : Deck) : Prop := ∀ k : JobKind, d ≠ k.waiting ∧ d ≠ k.underWay

theorem JobKind.before_rests (k : JobKind) : k.before.rests := by intro k'; cases k <;> cases k' <;> decide
theorem JobKind.ended_rests (k : JobKind) : k.ended.rests := by intro k'; cases k <;> cases k' <;> decide

/-! #### The law at an area, by its deck state -/

/-- No gang has a job in the area. -/
def NoGangAt (s : State) (a : AreaNo) : Prop := ∀ (g : GangNo) (k : JobKind), (s.gangs[g]).state.job ≠ some ⟨a, k⟩

theorem LashAt.of_rests {s : State} {a : AreaNo} (rests : (s.areas[a]).deck.rests) (gang : (s.areas[a]).gang = none)
    (jobs : ∀ k : JobKind, (⟨a, k⟩ : Job) ∉ s.jobs) (noGang : NoGangAt s a) : LashAt s a where
  queued k := iff_of_false (jobs k) (rests k).1
  worked k := iff_of_false (rests k).2 fun ⟨g, hg⟩ => noGang g k hg
  present g := iff_of_false (by rw [gang]; simp) fun ⟨k, hk⟩ => noGang g k hk

theorem LashAt.of_waiting {s : State} {a : AreaNo} {k : JobKind} (deck : (s.areas[a]).deck = k.waiting)
    (gang : (s.areas[a]).gang = none) (jobs : ∀ k' : JobKind, (⟨a, k'⟩ : Job) ∈ s.jobs ↔ k' = k)
    (noGang : NoGangAt s a) : LashAt s a where
  queued k' := by rw [jobs k', deck, JobKind.waiting_inj, eq_comm]
  worked k' := iff_of_false (deck ▸ k.waiting_ne_underWay k') fun ⟨g, hg⟩ => noGang g k' hg
  present g := iff_of_false (by rw [gang]; simp) fun ⟨k', hk⟩ => noGang g k' hk

theorem LashAt.of_worked {s : State} {a : AreaNo} {k : JobKind} {g : GangNo} (deck : (s.areas[a]).deck = k.underWay)
    (gang : (s.areas[a]).gang = some g) (jobs : ∀ k' : JobKind, (⟨a, k'⟩ : Job) ∉ s.jobs)
    (sent : (s.gangs[g]).state.job = some ⟨a, k⟩)
    (alone : ∀ g' ≠ g, ∀ k' : JobKind, (s.gangs[g']).state.job ≠ some ⟨a, k'⟩) : LashAt s a where
  queued k' := iff_of_false (jobs k') (deck ▸ (k'.waiting_ne_underWay k).symm)
  worked k' := by
    rw [deck, JobKind.underWay_inj]
    constructor
    · rintro rfl; exact ⟨g, sent⟩
    · rintro ⟨g', hg'⟩
      by_cases e : g' = g
      · subst e; rw [sent] at hg'; cases hg'; rfl
      · exact absurd hg' (alone g' e k')
  present g' := by
    rw [gang, Option.some_inj]
    constructor
    · rintro rfl; exact ⟨k, sent⟩
    · rintro ⟨k', hk'⟩
      by_contra e
      exact alone g' (fun h => e h.symm) k' hk'

theorem LashAt.noGang {s : State} {a : AreaNo} (h : LashAt s a) (deck : ∀ k : JobKind, (s.areas[a]).deck ≠ k.underWay) :
    NoGangAt s a := fun g k hg => deck k ((h.worked k).mpr ⟨g, hg⟩)

theorem LashAt.gang_none {s : State} {a : AreaNo} (h : LashAt s a) (noGang : NoGangAt s a) : (s.areas[a]).gang = none :=
  Option.eq_none_iff_forall_ne_some.mpr fun g hg => by
    obtain ⟨k, hk⟩ := (h.present g).mp hg
    exact noGang g k hk

/-- The one gang with a job in an area is the gang present on it. -/
theorem LashAt.gang_unique {s : State} {a : AreaNo} (h : LashAt s a) {g g' : GangNo} {k k' : JobKind}
    (hg : (s.gangs[g]).state.job = some ⟨a, k⟩) (hg' : (s.gangs[g']).state.job = some ⟨a, k'⟩) : g = g' :=
  Option.some_inj.mp (((h.present g).mpr ⟨k, hg⟩).symm.trans ((h.present g').mpr ⟨k', hg'⟩))

/-! #### The job queue -/

theorem mem_jobs_without {js : List Job} {a : AreaNo} {j : Job} :
    j ∈ js.filter (fun x => decide (x.area ≠ a)) ↔ j ∈ js ∧ j.area ≠ a := by simp

theorem jobs_without_nodup {js : List Job} (h : (js.map (·.area)).Nodup) (p : Job → Bool) :
    ((js.filter p).map (·.area)).Nodup := h.sublist (List.filter_sublist.map _)

/-! #### The five changes of the tables -/

theorem gangs_other {s : State} {g : GangNo} {f : Gang → Gang} {j : Job} (now : (f s.gangs[g]).state.job ≠ some j)
    (was : (s.gangs[g]).state.job ≠ some j) (g' : GangNo) :
    ((modGang g f s).gangs[g']).state.job = some j ↔ (s.gangs[g']).state.job = some j := by
  rw [modGang_get]; split
  · rename_i e; subst e; exact iff_of_false now was
  · exact Iff.rfl

theorem jobCreated_law (a : AreaNo) (k : JobKind) (c : AreaCause) (s : State) (h : LashLaw s)
    (deck : (s.areas[a]).deck = k.before) : LashLaw (queueJob a k c s) := by
  have at' := ((lashLaw_iff s).mp h).2 a
  have rests := deck ▸ k.before_rests
  have free : ∀ k', (⟨a, k'⟩ : Job) ∉ s.jobs := fun k' hk => (rests k').1 ((at'.queued k').mp hk)
  have noGang := at'.noGang fun k' => (rests k').2
  have jobs : (queueJob a k c s).jobs = s.jobs ++ [⟨a, k⟩] := by simp [queueJob]
  have gangs : (queueJob a k c s).gangs = s.gangs := by simp [queueJob]
  refine h.of_at a ?_ (fun b hb => ?_) (fun j hj => ?_) (fun g j _ => by rw [gangs]) (.of_waiting (k := k) ?_ ?_ (fun k' => ?_) ?_)
  · rw [jobs, List.map_append, List.nodup_append]
    refine ⟨h.single, by simp, fun x hx y hy e => ?_⟩
    obtain ⟨⟨b, k'⟩, hj, rfl⟩ := List.mem_map.mp hx
    obtain rfl : y = a := by simpa using hy
    exact free k' (e ▸ hj)
  · rw [queueJob, setDeck_get, if_neg hb]; rfl
  · rw [jobs, List.mem_append, List.mem_singleton, or_iff_left]; rintro rfl; exact hj rfl
  · rw [queueJob, setDeck_get, if_pos rfl]
  · rw [queueJob, setDeck_get, if_pos rfl]; exact at'.gang_none noGang
  · rw [jobs, List.mem_append, or_iff_right (free k')]; simp
  · intro g k'; rw [gangs]; exact noGang g k'

theorem jobWithdrawn_law (a : AreaNo) (k : JobKind) (c : AreaCause) (s : State) (h : LashLaw s)
    (deck : (s.areas[a]).deck = k.waiting) : LashLaw (withdrawJob a k.before c s) := by
  have at' := ((lashLaw_iff s).mp h).2 a
  have noGang := at'.noGang fun k' => deck ▸ k.waiting_ne_underWay k'
  have jobs : (withdrawJob a k.before c s).jobs = s.jobs.filter fun x => decide (x.area ≠ a) := by simp [withdrawJob]
  have gangs : (withdrawJob a k.before c s).gangs = s.gangs := by simp [withdrawJob]
  refine h.of_at a ?_ (fun b hb => ?_) (fun j hj => ?_) (fun g j _ => by rw [gangs]) (.of_rests ?_ ?_ (fun k' => ?_) ?_)
  · rw [jobs]; exact jobs_without_nodup h.single _
  · rw [withdrawJob, setDeck_get, if_neg hb]; rfl
  · rw [jobs, mem_jobs_without, and_iff_left hj]
  · rw [withdrawJob, setDeck_get, if_pos rfl]; exact k.before_rests
  · rw [withdrawJob, setDeck_get, if_pos rfl]; exact at'.gang_none noGang
  · rw [jobs, mem_jobs_without]; simp
  · intro g k'; rw [gangs]; exact noGang g k'

theorem giveJob_get (g : GangNo) (j : Job) (s : State) (b : AreaNo) : (giveJob g j s).areas[b] =
    if b = j.area then { s.areas[j.area] with deck := j.kind.underWay, gang := some g } else s.areas[b] := by
  simp only [giveJob, report_areas]
  rw [setGangPresent_get, setDeck_get, if_pos rfl, setDeck_get]
  by_cases e : b = j.area
  · rw [if_pos e, if_pos e]; rfl
  · rw [if_neg e, if_neg e, if_neg e]; rfl

theorem jobGiven_law (g : GangNo) (j : Job) (s : State) (h : LashLaw s) (idle : (s.gangs[g]).state = .idle)
    (mem : j ∈ s.jobs) : LashLaw (giveJob g j s) := by
  have at' := ((lashLaw_iff s).mp h).2 j.area
  have deck := (at'.queued j.kind).mp mem
  have noGang := at'.noGang fun k' => deck ▸ j.kind.waiting_ne_underWay k'
  have jobs : (giveJob g j s).jobs = s.jobs.filter fun x => decide (x.area ≠ j.area) := by simp [giveJob]
  have gangs : (giveJob g j s).gangs = (modGang g (fun x => { x with state := .sent j, mark := .job }) s).gangs := by
    simp [giveJob]
  refine h.of_at j.area ?_ (fun b hb => ?_) (fun i hi => ?_) (fun g' i hi => ?_)
    (.of_worked (k := j.kind) (g := g) ?_ ?_ (fun k' => ?_) ?_ (fun g' hg' k' => ?_))
  · rw [jobs]; exact jobs_without_nodup h.single _
  · rw [giveJob_get, if_neg hb]
  · rw [jobs, mem_jobs_without, and_iff_left hi]
  · rw [gangs]
    refine gangs_other ?_ (by rw [idle]; simp [GangState.job]) g'
    simp only [GangState.job, ne_eq, Option.some_inj]
    rintro rfl; exact hi rfl
  · rw [giveJob_get, if_pos rfl]
  · rw [giveJob_get, if_pos rfl]
  · rw [jobs, mem_jobs_without]; simp
  · rw [gangs, modGang_same]; rfl
  · rw [gangs, modGang_get, if_neg hg']; exact noGang g' k'

theorem jobDone_get (g : GangNo) (j : Job) (s : State) (b : AreaNo) : (jobDone g j s).areas[b] =
    if b = j.area then { s.areas[j.area] with deck := j.kind.ended, gang := none } else s.areas[b] := by
  simp only [jobDone, modGang_areas]
  rw [setGangPresent_get, setDeck_get, if_pos rfl, setDeck_get]
  by_cases e : b = j.area
  · rw [if_pos e, if_pos e]
  · rw [if_neg e, if_neg e, if_neg e]

/-- A gang whose job is over leaves no gang with a job in its area. -/
theorem LashLaw.gang_leaves {s t : State} (h : LashLaw s) {g : GangNo} {j : Job} (job : (s.gangs[g]).state.job = some j)
    {f : Gang → Gang} (gangs : t.gangs = (modGang g f s).gangs) (jobOver : (f s.gangs[g]).state.job = none) :
    NoGangAt t j.area ∧ ∀ (g' : GangNo) (i : Job), i.area ≠ j.area →
      ((t.gangs[g']).state.job = some i ↔ (s.gangs[g']).state.job = some i) := by
  have at' := ((lashLaw_iff s).mp h).2 j.area
  refine ⟨fun g' k' => ?_, fun g' i hi => ?_⟩
  · rw [gangs, modGang_get]; split
    · rw [jobOver]; simp
    · rename_i e
      exact fun hg' => e (at'.gang_unique hg' (k' := j.kind) job)
  · rw [gangs]
    refine gangs_other (by rw [jobOver]; simp) ?_ g'
    rw [job, ne_eq, Option.some_inj]
    rintro rfl; exact hi rfl

theorem jobDone_law (g : GangNo) (j : Job) (s : State) (h : LashLaw s) (job : (s.gangs[g]).state.job = some j) :
    LashLaw (jobDone g j s) := by
  have at' := ((lashLaw_iff s).mp h).2 j.area
  have deck := (at'.worked j.kind).mpr ⟨g, job⟩
  have jobs : (jobDone g j s).jobs = s.jobs := by simp [jobDone]
  obtain ⟨noGang, others⟩ := h.gang_leaves job (t := jobDone g j s) (f := fun x => { x with state := .idle, mark := .clear })
    (by simp [jobDone]) rfl
  refine h.of_at j.area (jobs ▸ h.single) (fun b hb => ?_) (fun i _ => by rw [jobs]) others
    (.of_rests ?_ ?_ (fun k' => ?_) noGang)
  · rw [jobDone_get, if_neg hb]
  · rw [jobDone_get, if_pos rfl]; exact j.kind.ended_rests
  · rw [jobDone_get, if_pos rfl]
  · rw [jobs, at'.queued, deck]; exact (k'.waiting_ne_underWay _).symm

theorem jobLeft_get (g : GangNo) (j : Job) (m : GangMark) (s : State) (b : AreaNo) : (jobLeft g j m s).areas[b] =
    if b = j.area then { s.areas[j.area] with deck := j.kind.waiting, gang := none } else s.areas[b] := by
  simp only [jobLeft, modGang_areas, returnJob]
  rw [setGangPresent_get, setDeck_get, if_pos rfl, setDeck_get]
  by_cases e : b = j.area
  · rw [if_pos e, if_pos e]; rfl
  · rw [if_neg e, if_neg e, if_neg e]; rfl

theorem jobLeft_law (g : GangNo) (j : Job) (m : GangMark) (s : State) (h : LashLaw s)
    (job : (s.gangs[g]).state.job = some j) : LashLaw (jobLeft g j m s) := by
  have at' := ((lashLaw_iff s).mp h).2 j.area
  have deck := (at'.worked j.kind).mpr ⟨g, job⟩
  have free : ∀ k', (⟨j.area, k'⟩ : Job) ∉ s.jobs := fun k' => by
    rw [at'.queued, deck]; exact (k'.waiting_ne_underWay _).symm
  have jobs : (jobLeft g j m s).jobs = j :: s.jobs := by simp [jobLeft, returnJob]
  obtain ⟨noGang, others⟩ := h.gang_leaves job (t := jobLeft g j m s) (f := fun x => { x with state := .off, mark := m })
    (by simp [jobLeft, returnJob]) rfl
  refine h.of_at j.area ?_ (fun b hb => ?_) (fun i hi => ?_) others (.of_waiting (k := j.kind) ?_ ?_ (fun k' => ?_) noGang)
  · rw [jobs, List.map_cons, List.nodup_cons]
    refine ⟨fun hx => ?_, h.single⟩
    obtain ⟨⟨b, k'⟩, hj, e⟩ := List.mem_map.mp hx
    exact free k' (e ▸ hj)
  · rw [jobLeft_get, if_neg hb]
  · rw [jobs, List.mem_cons, or_iff_right]; rintro rfl; exact hi rfl
  · rw [jobLeft_get, if_pos rfl]
  · rw [jobLeft_get, if_pos rfl]
  · rw [jobs, List.mem_cons, or_iff_left (free k')]
    exact ⟨fun e => congrArg Job.kind e, fun e => e ▸ rfl⟩

/-! #### Every change -/

theorem Quiet.lash {s t : State} (h : Quiet s t) (law : LashLaw s) : LashLaw t := by
  cases h with
  | jobCreated a k c _ deck => exact jobCreated_law a k c s law deck
  | jobWithdrawn a k c _ deck => exact jobWithdrawn_law a k c s law deck
  | jobGiven g j _ _ free mem =>
    simp only [gangFree, decide_eq_true_eq] at free
    exact jobGiven_law g j s law free.1 mem
  | _ => exact law.same (by simp) (by simp) (by simp)

theorem powerOn_lash (q : List Instr) (n : Nat) (asserted closed : Bool) : LashLaw (State.powerOn q n asserted closed) := by
  refine (lashLaw_iff _).mpr ⟨by simp [State.powerOn], fun a => .of_rests ?_ ?_ ?_ ?_⟩
  · have lashed : Deck.lashed.rests := JobKind.unlash.before_rests
    simpa [State.powerOn] using lashed
  · simp [State.powerOn]
  · simp [State.powerOn]
  · intro g k; simp [State.powerOn, GangState.job]

theorem emptied_law (s : State) (h : LashLaw s) : LashLaw (emptied s) := by
  have jobs : ∀ g : GangNo, ((emptied s).gangs[g]).state.job = (s.gangs[g]).state.job := fun g => by
    simp [Gang.reset]
  have deck : ∀ a : AreaNo, (emptied s).areas[a] = (s.areas[a]).reset := fun a => by simp
  refine (lashLaw_iff _).mpr ⟨by simp, fun a => ?_⟩
  have at' := ((lashLaw_iff s).mp h).2 a
  refine ⟨fun k => ?_, fun k => ?_, fun g => ?_⟩
  · rw [deck a]
    refine iff_of_false (by simp) ?_
    cases k <;> cases e : (s.areas[a]).deck <;> simp only [Area.reset, e, JobKind.waiting] <;> decide
  · simp only [jobs, deck a]
    rw [← at'.worked k]
    cases k <;> cases e : (s.areas[a]).deck <;> simp only [Area.reset, e, JobKind.underWay] <;> decide
  · simp only [jobs, deck a]
    exact at'.present g

/-- The loading of areas apart, every change keeps the law: five of the quiet and the gangs' changes write the lashing
tables, each at one area. -/
theorem Change.lash {p : Prop} {s t : State} (h : Change p s t) (noLoad : ¬p) (law : LashLaw s) : LashLaw t := by
  cases h with
  | quiet h => exact h.lash law
  | poweredOn => exact powerOn_lash ..
  | coordinatorEmptied => exact emptied_law s law
  | loaded a d flag _ loads => exact absurd loads noLoad
  | gangWritten g f _ job =>
    refine law.congr (fun _ => ⟨rfl, rfl⟩) rfl fun g' => ?_
    rw [modGang_get]; split
    · rename_i e; subst e; exact job
    · rfl
  | done g j _ job => exact jobDone_law g j s law job
  | left g j m _ job => exact jobLeft_law g j m s law job
  | _ =>
    exact law.same (by simp [leaveReset, lowerPositions]) (by simp [leaveReset, lowerPositions])
      (by simp [leaveReset, lowerPositions])

/-- Settles O5: every change but the loading of areas, which LOAD_AREAS alone makes, keeps the law. -/
theorem lashLawKept : Obligations.LashLawKept := by
  intro s t law noLoad h
  exact step_keeps (fun _ _ l => l.same rfl rfl rfl) (fun _ l => l.same rfl rfl rfl)
    (fun _ _ change => change.lash noLoad) h law

end Sys2Proof.Machine

namespace Sys2Proof.Machine

/-! ### Steps and power (tier 1, and every step completes) -/

/-- Settles O1: the step reads the front of the queue and nothing else. -/
theorem stepTakesTheFrontCommand : Obligations.StepTakesTheFrontCommand := fun _ _ _ => rfl

theorem exec_next (c : Instr) (s : State) : ∃ t, exec c s = .next t := by cases c <;> exact ⟨_, rfl⟩

theorem Change.pending {p : Prop} {s t : State} (h : Change p s t) : t.pending = s.pending := by
  cases h with
  | quiet h => exact h.keeps.pending
  | loaded a d flag _ _ => exact (areaLoaded_keeps a d flag s).pending
  | done g j _ _ => exact (jobDone_keeps g j s).pending
  | left g j m _ _ => exact (jobLeft_keeps g j m s).pending
  | _ => rfl

theorem Reach.pending {p : Prop} {s t : State} (h : Reach p s t) : t.pending = s.pending := by
  induction h with
  | refl => rfl
  | tail _ last ih => exact last.pending.trans ih

theorem tick_eq (s : State) : tick s = { s with clock := if s.resetAsserted then s.clock else s.clock + 1 } := by
  unfold tick; split <;> rfl

/-- Settles O2: no command answers with a fault or a refusal, and no change of a command's run touches the queue. -/
theorem everyStepCompletes : Obligations.EveryStepCompletes := by
  refine ⟨fun c s => ?_, fun s idle => ?_⟩
  · obtain ⟨t, ht⟩ := exec_next c s
    exact ⟨t, ht, (exec_reach c s t ht).pending⟩
  · simp only [step, idle, tick_eq]

/-- Settles O6: each law at its power-on lemma. -/
theorem resetMeetsTheLaws : Obligations.ResetMeetsTheLaws := by
  refine ⟨.of_empty fun k => ?_, powerOn_buffer .., ?_, ?_, ⟨?_, ?_⟩, powerOn_lash .., powerOn_param .., ?_, ?_⟩
  · simp [State.reset, State.powerOn]
  · simp [BerthLaw, State.reset, State.powerOn, Berth.powerOn, Causes.empty]
  · exact (craneSlotLaw_iff _).mpr fun k => .of_unstaged (by rw [State.reset, powerOn_cranes]; rfl)
  · intro l q; simp [State.reset, State.powerOn, Lane.powerOn]
  · intro l l' q q'; simp [State.reset, State.powerOn, Lane.powerOn]
  · intro st; simp [State.reset, State.powerOn]
  · refine (rosterLaw_iff _).mpr fun k => ?_
    rw [State.reset, powerOn_cranes]
    exact ⟨by simp [State.powerOn, Crane.powerOn], fun _ => rfl⟩

/-- Settles O7: the fields of the power-on state, one by one. -/
theorem powerOnValues : Obligations.PowerOnValues := by
  intro s
  refine ⟨State.powerOn s.pending s.freeCount s.resetAsserted s.berth.rawClosed, rfl, rfl, rfl, rfl, rfl, ?_, ?_, ?_, ?_,
    ?_, ?_, rfl, ?_, rfl, ?_, rfl, rfl, rfl, ?_, ?_, rfl⟩
  · intro i; simp [par, State.powerOn, defaultParams]
  · intro k
    refine ⟨?_, ?_, ?_, ?_⟩ <;> simp [State.powerOn, Crane.powerOn]
    decide
  · intro l; simp [State.powerOn, Lane.powerOn]
  · intro u; simp [State.powerOn]
  · intro i; simp [State.powerOn]
  · intro a; simp [State.powerOn]
  · intro g; simp [State.powerOn]
  · intro i; simp [State.powerOn]
  · intro c; simp [State.powerOn, Reports.powerOn]
  · simp [attention, State.powerOn, Reports.powerOn]

theorem awake_of_asserted {s : State} (f : State → State) (h : s.resetAsserted = true) : awake f s = s := if_pos h

theorem awake_of_negated {s : State} (f : State → State) (h : s.resetAsserted = false) : awake f s = f s := by
  simp [awake, h]

/-- Settles O8: the negation is written out by its definition, and every other command is wrapped in `awake`. -/
theorem resetHoldsThePartAndStartsTheClock : Obligations.ResetHoldsThePartAndStartsTheClock := by
  refine ⟨fun s => ⟨fun h => ?_, fun h => ?_⟩, fun c s h notOn notAsserted notNegated notContact => ?_⟩
  · show execResetNegated s = _
    rw [execResetNegated, if_pos h]; rfl
  · show execResetNegated s = _
    rw [execResetNegated, if_neg (by simp [h])]
  · cases c with
    | powerOn => exact absurd rfl notOn
    | resetAsserted => exact absurd rfl notAsserted
    | resetNegated => exact absurd rfl notNegated
    | stopContactChange b => exact absurd rfl (notContact b)
    | _ => exact congrArg _ (awake_of_asserted _ h)

/-! ### The REPORT bodies (R170, TABLE 63) -/

theorem causes_code (a b c : Bool) : (Causes.mk a b c).code = byte (a.toNat + 2 * b.toNat + 4 * c.toNat) := by
  cases a <;> cases b <;> cases c <;> rfl

/-- Settles O28: the body is computed item by item, with an absent item taken apart from a present one. -/
theorem reportBodies : Obligations.ReportBodies := by
  refine ⟨fun i v n time h => ⟨?_, ?_, ?_, ?_, ?_, ?_, ?_, ?_, ?_, ?_, ?_, ?_, ?_, ?_, ?_, ?_, ?_, ?_, ?_, ?_, ?_, ?_, ?_,
    ?_, ?_, ?_, ?_, ?_, ?_, ?_, ?_, ?_, ?_, ?_, ?_, ?_, ?_, ?_, ?_, ?_, ?_, ?_⟩, rfl, rfl, rfl, rfl, rfl, rfl, causes_code,
    rfl, rfl, rfl, fun _ => rfl, rfl, rfl, rfl⟩
  case refine_6 => rintro x (_ | k) rfl <;> rfl
  case refine_10 => rintro k n d (_ | m) rfl <;> rfl
  case refine_11 => rintro k n d (_ | m) (_ | a) rfl <;> rfl
  case refine_13 => rintro g (_ | j) rfl <;> rfl
  case refine_17 => rintro g (_ | j) rfl <;> rfl
  case refine_18 => rintro g x e a (_ | _ | _ | _) rfl <;> rfl
  case refine_32 => rintro k x e m (_ | a) z rfl <;> rfl
  case refine_39 => rintro m (_ | _ | _ | _ | _ | _ | _) rfl <;> rfl
  all_goals intros; subst_vars; rfl

end Sys2Proof.Machine

/-! PROOFS. The input pins and the uplink port. -/

namespace Sys2Proof.Machine

/-! ### Commands and reports -/

/-- A command that is not a matter of power does, while the reset input is negated, what its block does. -/
theorem next_awake {f : State → State} {s t : State} (awoken : s.resetAsserted = false) (h : f s = t) :
    (Host.Outcome.next (awake f s) : Host.Outcome State Fault Refusal) = .next t := by
  rw [awake_of_negated f awoken, h]

theorem report_state (i : Items) (s : State) : report i s = { s with reports := (report i s).reports } := by
  obtain ⟨f, hf⟩ := report_eq i (s := s)
  rw [hf]; rfl

/-- What a report does to the report queue depends on that queue, the clock and the parameters alone. -/
theorem report_reports_congr (i : Items) {s t : State} (reports : t.reports = s.reports) (clock : t.clock = s.clock)
    (params : t.params = s.params) : (report i t).reports = (report i s).reports := by
  have level : classLevel t i.cls = classLevel s i.cls := by simp only [classLevel, par, params]
  unfold report
  rw [reports, level]
  split
  · simp only [joinReport, modReports_reports, reports, level, clock]
  · split
    · simp only [joinReport, markLost, modReports, reports, clock, classLevel, par, params]
    · simp only [markLost, modReports_reports, reports]

/-- A report offered in a state that has the report queue, the clock and the parameters of `s`. -/
theorem report_of_same (i : Items) {s t : State} (reports : t.reports = s.reports) (clock : t.clock = s.clock)
    (params : t.params = s.params) : report i t = { t with reports := (report i s).reports } := by
  rw [report_state i t, report_reports_congr i reports clock params]

/-! ### The stop contact (R132) -/

theorem addCause_of_has {c : BerthCause} {s : State} (h : s.berth.causes.has c = true) : addCause c s = s := if_pos h

theorem addCause_of_held {c : BerthCause} {s : State} (h : s.berth.causes.has c = false) (held : s.berth.state ≠ .running) :
    addCause c s = { s with
      berth := { s.berth with causes := s.berth.causes.add c }
      reports := (report (.berth (.causeAdded s.berth.state c (s.berth.causes.add c))) s).reports } := by
  rw [addCause, if_neg (by simp [h]), if_neg held]
  exact report_of_same _ rfl rfl rfl

theorem addCause_of_running {c : BerthCause} {s : State} (h : s.berth.causes.has c = false) (running : s.berth.state = .running) :
    addCause c s = enterHold c s := by
  rw [addCause, if_neg (by simp [h]), if_pos running]

theorem contactSettles_of_opened {s : State} (opened : s.berth.rawClosed = false) :
    contactSettles s = addCause .contact { s with berth := { s.berth with closed := false } } := by
  simp only [contactSettles, opened, Bool.false_eq_true, if_false, modBerth]

theorem contactDue_iff (s : State) :
    contactDue s = true ↔ s.berth.rawClosed ≠ s.berth.closed ∧ 5 ≤ age s.clock s.berth.lastChange := by
  simp [contactDue]

theorem contactDebounced_of_due {s : State} (awoken : s.resetAsserted = false) (due : contactDue s = true) :
    exec .contactDebounced s = .next (contactSettles s) :=
  next_awake awoken (if_pos due)

/-- Settles O9: the debounced level is taken where it is due, and an opening adds its cause by the rule of `addCause`. -/
theorem stopContactDebounced : Obligations.StopContactDebounced := by
  refine ⟨fun b s => congrArg _ rfl, fun s awoken => ⟨fun differs stood => ?_, fun notDue => ?_⟩⟩
  · have due := (contactDue_iff s).mpr ⟨differs, stood⟩
    rw [contactDebounced_of_due awoken due]
    refine ⟨fun closed => ?_, fun opened standing => ?_, fun opened new held => ?_⟩
    · simp only [contactSettles, closed, if_true, modBerth]
    · rw [contactSettles_of_opened opened]
      exact congrArg _ (addCause_of_has (c := .contact) standing)
    · rw [contactSettles_of_opened opened]
      refine congrArg _ ((addCause_of_held (c := .contact) ?_ ?_).trans ?_)
      · exact new
      · exact held
      · simp only [Causes.add]
        congr 1
        exact report_reports_congr _ rfl rfl rfl
  · refine next_awake awoken (if_neg fun due => ?_)
    obtain ⟨differs, stood⟩ := (contactDue_iff s).mp due
    rcases notDue with same | young
    · exact differs same
    · omega

/-! ### The receiver (R155 to R159) -/

theorem listening_of_collecting {s : State} {m : Byte} (line : s.uplink.breaking = false)
    (collecting : s.uplink.receiver = .collecting m) : listening s = some m := by
  simp [listening, line, collecting]

theorem discard_eq (f : LineFault) (m : Byte) (s : State) : discard f m s = discardedFor f m .hunting s :=
  report_of_same (.line (.uplink f (some m))) rfl rfl rfl

theorem isMark_iff (ls : LineSettings) (c : RxChar) :
    isMark ls c = true ↔ c.mark = true ∧ c.stop = true ∧ parityError ls c = false := by
  simp [isMark, framingError, and_assoc]

/-- Settles O24: each command at its branch, with the discards written out once by `discard_eq`. -/
theorem receiverTakesAndDiscards : Obligations.ReceiverTakesAndDiscards := by
  refine ⟨fun s awoken line => ⟨fun c hunting => ?_, fun m kind sequence body collecting short => ?_⟩,
    fun m s awoken line collecting => ?_⟩
  · refine next_awake awoken ?_
    simp only [huntedCharacter, line, hunting, isMark_iff, Bool.not_false, true_and, modUplink]
  · have heard := listening_of_collecting line collecting
    have done : telegramCompletes kind sequence body (checkOf kind sequence body) s =
        offerInbound ⟨m, kind, sequence, body⟩ (modUplink (fun u => { u with receiver := .hunting }) s) := by
      simp [telegramCompletes, heard, Config.bodyCapacity, short]
    refine ⟨fun room => next_awake awoken ?_, fun full => next_awake awoken ?_⟩
    · rw [done, offerInbound, if_pos (by simpa [Config.inboundCapacity] using room)]
      rfl
    · rw [done, offerInbound, if_neg (by simpa [Config.inboundCapacity] using full)]
      exact report_of_same _ rfl rfl rfl
  · have heard := listening_of_collecting line collecting
    refine ⟨next_awake awoken ?_, fun used => next_awake awoken ?_, fun n long => next_awake awoken ?_,
      fun c mark => next_awake awoken ?_, fun kind sequence body x short wrong => next_awake awoken ?_, next_awake awoken ?_⟩
    · simp only [telegramDiscarded, heard, discard_eq]
    · simp only [telegramDiscarded, heard, discard_eq, if_neg used]
    · simp only [telegramDiscarded, heard, discard_eq, Config.bodyCapacity, if_neg (Nat.not_le.mpr long)]
    · simp only [telegramDiscarded, heard, discard_eq, mark, if_true]; rfl
    · simp only [telegramDiscarded, heard, discard_eq, Config.bodyCapacity]
      exact if_pos ⟨short, wrong⟩
    · simp only [gapPasses, heard, discard_eq]

/-! ### The break (R164) -/

/-- Settles O25: what is kept to be sent again is `cutOffAt`, by what was being sent. -/
theorem breakClearsTheLine : Obligations.BreakClearsTheLine := by
  intro s awoken
  refine ⟨fun line => ⟨cutOffAt s, next_awake awoken ?_, fun t ht => ?_, fun t ht kept => ?_, fun t ht gone => ?_,
    fun idle => ?_⟩, next_awake awoken rfl⟩
  · rw [breakBegins, if_neg (by simp [line])]
    exact report_of_same _ rfl rfl rfl
  · simp only [cutOffAt, ht]
  · simp only [cutOffAt, ht]
    exact if_pos (List.any_eq_true.mpr kept)
  · simp only [cutOffAt, ht]
    exact if_neg fun held => by
      obtain ⟨r, hr, inHand⟩ := List.any_eq_true.mp held
      simp [gone r hr] at inHand
  · simp only [cutOffAt, idle]

/-! ### The transmitter (R161 to R168) -/

theorem takeInHand_append {v : Nat} {r : Report} {q : List Report} (level : r.level = v) :
    ∀ p : List Report, (∀ x ∈ p, x.level ≠ v) → takeInHand (p ++ r :: q) v = p ++ { r with inHand := true } :: q
  | [], _ => if_pos level
  | x :: p, h => by
    obtain ⟨other, rest⟩ := List.forall_mem_cons.mp h
    simp only [List.cons_append, takeInHand, if_neg other, takeInHand_append level p rest]

/-- The next report splits the queue: those before it are of lower levels, those behind it of no higher level (R168). -/
theorem nextReport_split {q : List Report} (h : q ≠ []) : ∃ (p : List Report) (r : Report) (rest : List Report),
    q = p ++ r :: rest ∧ nextReport q = some r ∧ (∀ x ∈ p, x.level < r.level) ∧ ∀ x ∈ rest, x.level ≤ r.level := by
  obtain ⟨v, hv⟩ : ∃ v, (q.map (·.level)).max? = some v := by
    rw [← Option.isSome_iff_exists, List.isSome_max?_iff]; simpa using h
  obtain ⟨mem, le⟩ := List.max?_eq_some_iff.mp hv
  obtain ⟨x, hx, level⟩ := List.mem_map.mp mem
  obtain ⟨r, hr⟩ : ∃ r, q.find? (fun r => decide (r.level = v)) = some r := by
    rw [← Option.isSome_iff_exists, List.find?_isSome]; exact ⟨x, hx, by simpa using level⟩
  obtain ⟨found, p, rest, split, before⟩ := List.find?_eq_some_iff_append.mp hr
  have found : r.level = v := by simpa using found
  have bound : ∀ x ∈ q, x.level ≤ r.level := fun x hx => found ▸ le _ (List.mem_map_of_mem hx)
  refine ⟨p, r, rest, split, by simp [nextReport, hv, hr], fun x hx => ?_, fun x hx => ?_⟩
  · refine lt_of_le_of_ne (bound x (by simp [split, hx])) ?_
    simpa [found] using before x hx
  · exact bound x (by simp [split, hx])

theorem transmitStart_of_idle {s : State} (line : s.uplink.breaking = false) (idle : s.uplink.sending = none) :
    transmitStart s = chooseTelegram s := if_neg (by simp [line, idle])

/-- Settles O26: the choices of the transmitter in their order, with the report queue split at the report it takes. -/
theorem transmitterSendsInOrder : Obligations.TransmitterSendsInOrder := by
  refine ⟨fun s awoken => ⟨fun busy => ?_, fun line idle => ⟨fun x cut => ?_, fun r uncut buffered => ?_,
    fun uncut unbuffered nothing => ?_, fun uncut unbuffered placed queued => ?_⟩⟩,
    fun s t awoken line => ⟨fun sending => ?_, fun sending => ?_⟩⟩
  · exact next_awake awoken (if_pos busy)
  · refine next_awake awoken ?_
    rw [transmitStart_of_idle line idle]
    simp only [chooseTelegram, cut, modUplink]
  · refine next_awake awoken ?_
    rw [transmitStart_of_idle line idle]
    simp only [chooseTelegram, uncut, buffered, modUplink, Response.telegram, Response.body, Config.kResponse]
  · refine next_awake awoken ?_
    rw [transmitStart_of_idle line idle]
    simp only [chooseTelegram, uncut, unbuffered]
    rcases nothing with waits | empty
    · exact if_pos waits
    · simp [empty, nextReport]
  · obtain ⟨p, r, rest, split, next, before, behind⟩ := nextReport_split queued
    refine ⟨p, rest, r, split, before, behind, next_awake awoken ?_⟩
    have taken : takeInHand s.reports.queue r.level = p ++ { r with inHand := true } :: rest :=
      split ▸ takeInHand_append rfl p fun x hx => (before x hx).ne
    rw [transmitStart_of_idle line idle]
    simp only [chooseTelegram, uncut, unbuffered, placed, next, startReport, taken, modReports, modUplink]; rfl
  · refine ⟨applySettings (s.uplink.buffer.bind (·.settings))
        { s.uplink with sending := none, buffer := s.uplink.waiting, waiting := none },
      next_awake awoken (by simp only [responseSent, line, sending, modUplink]), ?_⟩
    cases buffered : s.uplink.buffer with
    | none => simp [applySettings, line]
    | some r =>
      cases settings : r.settings with
      | none =>
        simp only [applySettings, Option.bind_some, settings, Option.some_inj]
        refine ⟨trivial, trivial, trivial, trivial, trivial, trivial, trivial, line, ?_, ?_⟩
        · rintro _ x rfl h; cases settings.symm.trans h
        · rintro _ rfl _; exact ⟨trivial, trivial⟩
      | some x =>
        simp only [applySettings, Option.bind_some, settings, Option.some_inj]
        refine ⟨trivial, trivial, trivial, trivial, trivial, trivial, trivial, line, ?_, ?_⟩
        · rintro _ y rfl h; exact ⟨Option.some_inj.mp (settings.symm.trans h), trivial⟩
        · rintro _ rfl h; cases settings.symm.trans h
  · refine next_awake awoken ?_
    simp only [reportSent, line, sending, modReports, modUplink]

end Sys2Proof.Machine

/-! PROOFS. The move table and the release unit read in the statements' words: points and areas, eligibility, lanes found,
requests standing, windows and blocking reasons. -/

namespace Sys2Proof.Machine

/-! ### The pool -/

theorem inPool_iff (s : State) (n : MoveNo) : inPool s n = true ↔ n ∈ (pool s).map (·.number) := by
  rw [← Bool.not_eq_false, inPool_eq_false_iff, not_not]

theorem findIn_isNone_iff (s : State) (k : CraneNo) (n : MoveNo) : (findIn s k n).isNone = true ↔ n ∉ queueNumbers s k := by
  simp [findIn, queueNumbers]

/-! ### Points, areas and eligibility (R3, R12, R101) -/

theorem bayRow_isSome_iff (s : State) (n : Nat) :
    (bayRow s n).isSome = true ↔ ∃ (i : Fin 64) (x : BayRow), s.bays[i] = some x ∧ x.bay = n := by
  constructor
  · intro h
    obtain ⟨x, hx⟩ := Option.isSome_iff_exists.mp h
    obtain ⟨i, row, bay, _⟩ := (bayRow_eq_some_iff s n x).mp hx
    exact ⟨i, x, row, bay⟩
  · rintro ⟨i, x, row, rfl⟩
    simp only [bayRow, List.isSome_findSome?, List.any_eq_true, Vector.mem_toList_iff]
    exact ⟨some x, row ▸ Vector.getElem_mem i.isLt, by simp⟩

theorem areaOf_eq_some_iff (s : State) (n : Nat) (a : AreaNo) : areaOf s n = some a ↔ ∃ x, BayAt s n x ∧ x.area = a := by
  simp only [areaOf, Option.map_eq_some_iff, bayRow_eq_some_iff]

theorem mem_deckAreas_iff (s : State) (r : MoveRecord) (a : AreaNo) : a ∈ deckAreas s r ↔ DeckIn s r a := by
  simp only [deckAreas, List.mem_filterMap, List.mem_filter, decide_eq_true_eq, Prod.exists, mem_points_iff,
    areaOf_eq_some_iff, DeckIn]
  constructor
  · rintro ⟨n, _, ⟨touches, rfl⟩, x, row, area⟩
    exact ⟨n, x, touches, row, area⟩
  · rintro ⟨n, x, touches, row, area⟩
    exact ⟨n, .deck, ⟨touches, rfl⟩, x, row, area⟩

theorem mem_pointAreas_iff (s : State) (r : MoveRecord) (a : AreaNo) : a ∈ pointAreas s r ↔ PointIn s r a := by
  simp only [pointAreas, List.mem_filterMap, Prod.exists, mem_points_iff, areaOf_eq_some_iff, PointIn]
  constructor
  · rintro ⟨n, z, touches, x, row, area⟩
    exact ⟨n, z, x, touches, row, area⟩
  · rintro ⟨n, z, x, touches, row, area⟩
    exact ⟨n, z, touches, x, row, area⟩

/-- Some deck point of the record lies in no area whose deck state is OPEN (R12 condition 2 fails). -/
def LashedPoint (s : State) (r : MoveRecord) : Prop :=
  ∃ n, Touches r n .deck ∧ ∀ x, BayAt s n x → (s.areas[x.area]).deck ≠ .opened

/-- A gang is present on the area of some point of the record (R12 condition 3 fails). -/
def GangPoint (s : State) (r : MoveRecord) : Prop := ∃ a, PointIn s r a ∧ (s.areas[a]).gang ≠ none

theorem lashingMet_iff (s : State) (r : MoveRecord) : lashingMet s r = true ↔ ¬LashedPoint s r := by
  simp only [lashingMet, List.all_eq_true, Prod.forall, mem_points_iff, Bool.or_eq_true, decide_eq_true_eq, LashedPoint,
    not_exists, not_and, ← bayRow_eq_some_iff]
  constructor
  · intro met n touches shut
    rcases met n .deck touches with other | opened
    · exact other rfl
    · cases row : bayRow s n with
      | none => simp [areaOf, row] at opened
      | some x => exact shut x row (by simpa [areaOf, row] using opened)
  · intro met n z touches
    cases z with
    | hold => exact .inl (by decide)
    | deck =>
      refine .inr ?_
      have opened := met n touches
      push Not at opened
      obtain ⟨x, row, opened⟩ := opened
      simpa [areaOf, row] using opened

theorem gangMet_iff (s : State) (r : MoveRecord) : gangMet s r = true ↔ ¬GangPoint s r := by
  simp only [gangMet, List.all_eq_true, mem_pointAreas_iff, Option.isNone_iff_eq_none, GangPoint, not_exists, not_and,
    ne_eq, not_not]

theorem failingCause_precedence {s : State} {r : MoveRecord} (h : r.afterMove.isSome = true) :
    failingCause s r = some .precedence := if_pos h

theorem failingCause_lashing {s : State} {r : MoveRecord} (after : r.afterMove = none) (lashed : LashedPoint s r) :
    failingCause s r = some .lashing := by
  have unmet : lashingMet s r = false := by rw [← Bool.not_eq_true, lashingMet_iff, not_not]; exact lashed
  simp [failingCause, after, unmet]

theorem failingCause_gang {s : State} {r : MoveRecord} (after : r.afterMove = none) (lashed : ¬LashedPoint s r)
    (gang : GangPoint s r) : failingCause s r = some .gang := by
  have unmet : gangMet s r = false := by rw [← Bool.not_eq_true, gangMet_iff, not_not]; exact gang
  simp [failingCause, after, (lashingMet_iff s r).mpr lashed, unmet]

theorem failingCause_none {s : State} {r : MoveRecord} (after : r.afterMove = none) (lashed : ¬LashedPoint s r)
    (gang : ¬GangPoint s r) : failingCause s r = none := by
  simp [failingCause, after, (lashingMet_iff s r).mpr lashed, (gangMet_iff s r).mpr gang]

theorem eligible_iff (s : State) (r : MoveRecord) :
    eligible s r = true ↔ r.afterMove = none ∧ ¬LashedPoint s r ∧ ¬GangPoint s r := by
  rw [← lashingMet_iff, ← gangMet_iff]
  cases after : r.afterMove <;> cases lashing : lashingMet s r <;> cases gang : gangMet s r <;>
    simp [eligible, failingCause, after, lashing, gang]

theorem pendingCause_of_pending {s : State} {r : MoveRecord} (h : r.state = .pending) :
    pendingCause s r = failingCause s r := if_pos h

theorem pendingCause_of_not_pending {s : State} {r : MoveRecord} (h : r.state ≠ .pending) : pendingCause s r = none :=
  if_neg h

theorem evaluateRecord_of_eligible {s : State} {r : MoveRecord} (h : eligible s r = true) : evaluateRecord s r =
    { r with state := .ready, readyTime := if r.state = .ready then r.readyTime else some s.clock } := if_pos h

theorem evaluateRecord_of_not_eligible {s : State} {r : MoveRecord} (h : eligible s r = false) :
    evaluateRecord s r = { r with state := .pending } := if_neg (by simp [h])

/-! ### Validity of legs (R4, TABLE 8) -/

theorem boxValid_iff (b : Box) : boxValid b = true ↔ b.identifier.length = 11 ∧ b.mass ≤ 700 ∧ ∀ c ∈ b.identifier,
    (0x30 ≤ c.toNat ∧ c.toNat ≤ 0x39) ∨ (0x41 ≤ c.toNat ∧ c.toNat ≤ 0x5A) := by
  simp only [boxValid, identifierValid, Bool.and_eq_true, decide_eq_true_eq, List.all_eq_true, Bool.or_eq_true]
  tauto

theorem boxesValid_iff (s : State) (l : Leg) : boxesValid s l = true ↔ boxValid l.box1 = true ∧
    ∀ b, l.box2 = some b → boxValid b = true ∧ l.box1.size = .ft20 ∧ b.size = .ft20 ∧
      l.box1.mass + b.mass ≤ par s Config.TWIN_MASS_LIMIT := by
  cases second : l.box2 <;> simp [boxesValid, second, and_assoc]

theorem points_mapped_iff (s : State) (l : Leg) : (∀ p ∈ l.points, (bayRow s p.1).isSome = true) ↔
    (bayRow s l.bay).isSome = true ∧ ∀ d b, l.restow = some d → d.toBay = some b → (bayRow s b).isSome = true := by
  constructor
  · intro mapped
    refine ⟨mapped _ ((mem_legPoints_iff ..).mpr (.inl ⟨rfl, rfl⟩)), fun d b restow target => ?_⟩
    simpa [target] using mapped _ ((mem_legPoints_iff ..).mpr (.inr ⟨d, restow, rfl, rfl⟩))
  · rintro ⟨own, other⟩ ⟨n, z⟩ mem
    rcases (mem_legPoints_iff l n z).mp mem with ⟨rfl, _⟩ | ⟨d, restow, rfl, _⟩
    · exact own
    · cases target : d.toBay with
      | none => exact own
      | some b => exact other d b restow target

theorem legValid_iff (s : State) (l : Leg) : legValid s l = true ↔ (bayRow s l.bay).isSome = true ∧
    (∀ d b, l.restow = some d → d.toBay = some b → (bayRow s b).isSome = true) ∧ boxesValid s l = true := by
  rw [legValid, Bool.and_eq_true, List.all_eq_true, points_mapped_iff, and_assoc]

theorem legCount_eq (kind : MoveKind) : kind.legCount = if kind = .dual then 2 else 1 := by cases kind <;> rfl

/-- Settles O29: validity leg by leg, and the three conditions of eligibility in their order. -/
theorem legsValidAndMovesEligible : Obligations.LegsValidAndMovesEligible := by
  refine ⟨fun s kind legs => ?_, fun s r => ⟨?_, pendingCause_of_not_pending, fun pending => ⟨fun after => ?_,
    fun after lashed => ?_, fun after lashed gang => ?_, fun after lashed gang => ?_⟩, evaluateRecord_of_eligible,
    evaluateRecord_of_not_eligible⟩⟩
  · simp only [legsValid, Bool.and_eq_true, decide_eq_true_eq, List.all_eq_true, legCount_eq, legValid_iff,
      boxesValid_iff, boxValid_iff, bayRow_isSome_iff, and_assoc]
  · rw [eligible_iff, Option.not_isSome_iff_eq_none]; exact Iff.rfl
  · rw [pendingCause_of_pending pending, failingCause_precedence after]
  · rw [pendingCause_of_pending pending, failingCause_lashing (Option.not_isSome_iff_eq_none.mp after) lashed]
  · rw [pendingCause_of_pending pending, failingCause_gang (Option.not_isSome_iff_eq_none.mp after) lashed gang]
  · rw [pendingCause_of_pending pending, failingCause_none (Option.not_isSome_iff_eq_none.mp after) lashed gang]

/-! ### Lanes found and requests standing (R82 to R88) -/

theorem lanes_filter_pairwise_le (p : LaneNo → Bool) : (lanes.filter p).Pairwise (· ≤ ·) :=
  (List.pairwise_le_finRange 16).filter p

theorem find_lanes_eq_some_iff (p : LaneNo → Bool) (l : LaneNo) :
    lanes.find? p = some l ↔ p l = true ∧ ∀ m < l, p m = false := by
  rw [← List.head?_filter, head?_eq_some_iff_of_pairwise (lanes_filter_pairwise_le p)]
  simp only [lanes, List.mem_filter, List.mem_finRange, true_and]
  refine and_congr_right fun _ => ⟨fun least m below => ?_, fun least m found => ?_⟩
  · exact Bool.eq_false_iff.mpr fun found => absurd (least m found) (not_le.mpr below)
  · by_contra below
    simp [least m (not_le.mp below)] at found

theorem find_lanes_eq_none_iff (p : LaneNo → Bool) : lanes.find? p = none ↔ ∀ l, p l = false := by
  simp [lanes]

theorem sharedBy_iff (s : State) (k : CraneNo) (l : LaneNo) : (s.lanes[l]).use.sharedBy k = true ↔ SharedBy s k l := by
  unfold SharedBy
  cases use : (s.lanes[l]).use with
  | shared j => simp [LaneUse.sharedBy]
  | _ => simp [LaneUse.sharedBy]

theorem homeLane_iff (s : State) (k : CraneNo) (l : LaneNo) : homeLane s k l = true ↔
    (s.lanes[l]).use = .home k ∧ ∃ e, s.roster[k] = some e ∧ l ∈ e.homeLanes := by
  simp only [homeLane, Bool.and_eq_true, decide_eq_true_eq, Option.any_eq_true]

theorem sharedOpen_iff (s : State) (k : CraneNo) (l : LaneNo) : sharedOpen s k l = true ↔
    SharedBy s k l ∧ ((s.lanes[l]).owner = none ∨
      ((s.lanes[l]).owner = some k ∧ ∀ q, (s.lanes[l]).request = some q → q.crane = k)) := by
  simp only [sharedOpen, Bool.and_eq_true, sharedBy_iff, Bool.or_eq_true, Option.isNone_iff_eq_none, decide_eq_true_eq,
    Bool.not_eq_true', Option.any_eq_false, ne_eq, decide_eq_false_iff_not, not_not]

/-- A lane of the first or of the second part of the order of selection, taken by lowest number. -/
theorem laneFound_eq (s : State) (k : CraneNo) : laneFound s k =
    (lanes.find? fun l => decide ((s.lanes[l]).slot = .free false) && homeLane s k l).or
      (lanes.find? fun l => decide ((s.lanes[l]).slot = .free false) && sharedOpen s k l) := by
  simp only [laneFound, selection, List.head?_append, List.filter_filter, List.head?_filter, Bool.and_comm]

theorem homeOpen_iff (s : State) (k : CraneNo) (l : LaneNo) :
    (decide ((s.lanes[l]).slot = .free false) && homeLane s k l) = true ↔ HomeOpen s k l := by
  simp only [Bool.and_eq_true, decide_eq_true_eq, homeLane_iff, HomeOpen]

theorem sharedFree_iff (s : State) (k : CraneNo) (l : LaneNo) :
    (decide ((s.lanes[l]).slot = .free false) && sharedOpen s k l) = true ↔ SharedOpen s k l := by
  simp only [Bool.and_eq_true, decide_eq_true_eq, sharedOpen_iff, SharedOpen]

/-- R85: the lane found is the one of the order of selection. -/
theorem laneFound_eq_some_iff (s : State) (k : CraneNo) (l : LaneNo) : laneFound s k = some l ↔ FindsLane s k l := by
  rw [laneFound_eq, Option.or_eq_some_iff, find_lanes_eq_some_iff, find_lanes_eq_some_iff, find_lanes_eq_none_iff]
  simp only [← Bool.not_eq_true, homeOpen_iff, sharedFree_iff, FindsLane]
  tauto

theorem laneFound_eq_none_iff (s : State) (k : CraneNo) : laneFound s k = none ↔ ∀ l, ¬FindsLane s k l := by
  simp only [Option.eq_none_iff_forall_ne_some, ne_eq, laneFound_eq_some_iff]

theorem hasRequest_iff (s : State) (k : CraneNo) : hasRequest s k = true ↔ HasStanding s k := by
  simp [hasRequest, HasStanding, lanes, Option.any_eq_true]

theorem ownedByOther_iff (s : State) (k : CraneNo) (l : LaneNo) :
    ((s.lanes[l]).use.sharedBy k && (s.lanes[l]).owner.any fun j => decide (j ≠ k)) = true ↔ OwnedByOther s k l := by
  simp only [Bool.and_eq_true, sharedBy_iff, Option.any_eq_true, decide_eq_true_eq, OwnedByOther]

theorem raiseRequest_of_none {s : State} {k : CraneNo} (n : MoveNo) (h : HasStanding s k ∨ ∀ l, ¬OwnedByOther s k l) :
    raiseRequest k n s = s := by
  unfold raiseRequest
  split
  · rfl
  · rename_i standing
    rcases h with h | h
    · exact absurd ((hasRequest_iff s k).mpr h) standing
    · rw [(find_lanes_eq_none_iff _).mpr fun l => by rw [← Bool.not_eq_true, ownedByOther_iff]; exact h l]

theorem raiseRequest_of_owned {s : State} {k : CraneNo} (n : MoveNo) {l : LaneNo} (standing : ¬HasStanding s k)
    (owned : OwnedByOther s k l) (lowest : ∀ m < l, ¬OwnedByOther s k m) :
    raiseRequest k n s = modLane l (fun x => { x with request := some ⟨k, n⟩ }) s := by
  unfold raiseRequest
  rw [if_neg (by rwa [hasRequest_iff]), (find_lanes_eq_some_iff _ l).mpr
    ⟨(ownedByOther_iff s k l).mpr owned, fun m below => by rw [← Bool.not_eq_true, ownedByOther_iff]; exact lowest m below⟩]

/-! ### Windows, stale requests and lane need (R30, R53, R54, R90) -/

theorem window_eq (s : State) (k : CraneNo) : window s k = windowOf s k := rfl

theorem horizon_eq (s : State) (k : CraneNo) : horizon s k = horizonOf s k := rfl

theorem dropStaleRequest_eq (k : CraneNo) (s : State) : dropStaleRequest k s = withoutStale k s := by
  have same : ∀ q : Request, (!(decide (q.crane = k) && !(horizon s k ++ window s k).any fun r => decide (r.number = q.move))) =
      decide (q.crane ≠ k ∨ q.move ∈ (horizonOf s k ++ windowOf s k).map (·.number)) := by
    intro q
    rw [Bool.eq_iff_iff]
    simp only [Bool.not_and, Bool.not_not, Bool.or_eq_true, Bool.not_eq_true', decide_eq_false_iff_not, decide_eq_true_eq,
      List.any_eq_true, List.mem_map, window_eq, horizon_eq, ne_eq]
  simp only [dropStaleRequest, withdrawRequests, mapLanes, same, withoutStale]

theorem laneKind_iff (kind : MoveKind) : kind.laneKind = true ↔ kind ≠ .restow := by cases kind <;> decide

/-- The move needs a slot and holds none (R31 step 2). -/
theorem laneSettled_eq_false_iff (r : MoveRecord) : laneSettled r = false ↔ r.kind ≠ .restow ∧ r.lane = none := by
  rw [← laneKind_iff]
  simp [laneSettled]

theorem laneNeed_iff (r : MoveRecord) : laneNeed r = true ↔ NeedsLane r := by
  unfold laneNeed NeedsLane
  cases r.kind <;> simp [Option.any_eq_true]

/-! ### The release condition (R27) and the blocking reason (R44) -/

theorem craneOpen_iff (s : State) (k : CraneNo) : craneOpen s k = true ↔
    (s.cranes[k]).mode = .inService ∧ (s.cranes[k]).held = false ∧
      (∀ d, (s.cranes[k]).directive = some d → d.kind ≠ .withdraw) ∧ (s.cranes[k]).fault = false ∧
      stationState s (.crane k) = .active ∧ s.berth.state = .running := by
  simp only [craneOpen, withdrawPending, Bool.and_eq_true, decide_eq_true_eq, Bool.not_eq_true', Option.any_eq_false,
    decide_eq_false_iff_not, and_assoc]

theorem releaseCondition_iff (s : State) (k : CraneNo) : releaseCondition s k = true ↔
    craneOpen s k = true ∧ (s.cranes[k]).staged = none := by
  simp only [releaseCondition, Bool.and_eq_true, Option.isNone_iff_eq_none]

theorem releaseWork_of_closed {s : State} {k : CraneNo} (h : releaseCondition s k = false) : releaseWork k s = s :=
  if_neg (by simp [h])

theorem evaluateOnce_eq (k : CraneNo) (s : State) : evaluateOnce k s = releaseWork k (withoutStale k s) := by
  rw [evaluateOnce, dropStaleRequest_eq]

theorem evaluateOnce_of_closed {s : State} {k : CraneNo} (h : releaseCondition s k = false) :
    evaluateOnce k s = withoutStale k s := by
  rw [evaluateOnce_eq]; exact releaseWork_of_closed h

theorem evaluate_of_closed {s : State} {k : CraneNo} (h : releaseCondition s k = false) :
    evaluate k s = withoutStale k s := by
  unfold evaluate
  rw [evaluateOnce_of_closed h]
  refine if_neg fun ⟨empty, filled⟩ => ?_
  have same : (withoutStale k s).cranes = s.cranes := rfl
  rw [same, Option.isNone_iff_eq_none.mp empty] at filled
  cases filled

/-- Settles O12: the seven parts, and an evaluation that stops at the condition. -/
theorem releaseOnlyUnderTheCondition : Obligations.ReleaseOnlyUnderTheCondition := by
  refine fun s k => ⟨?_, fun closed => ⟨evaluateOnce_of_closed closed, evaluate_of_closed closed⟩⟩
  rw [releaseCondition_iff, craneOpen_iff]
  simp only [and_assoc]

theorem agreement_of_unreported {s : State} {k : CraneNo} (h : (s.cranes[k]).view = none) : agreement s k = .full := by
  simp only [agreement, h]

theorem viewUnknown_iff (s : State) (v : View) : viewUnknown s v = true ↔
    ∃ n, (v.active = some n ∨ v.staged = some n) ∧ n ∉ (pool s).map (·.number) := by
  simp only [viewUnknown, Bool.or_eq_true, Option.any_eq_true, Bool.not_eq_true', inPool_eq_false_iff, or_and_right,
    exists_or]

theorem blockReason_of_cons {s : State} {k : CraneNo} {r : MoveRecord} {q : List MoveRecord} (h : windowOf s k = r :: q) :
    blockReason s k = if !craneOpen s k then .craneHeld
      else (pendingCause s r).getD (if !laneSettled r && (laneFound s k).isNone then .lane else .clearance) := by
  unfold blockReason
  rw [window_eq, h]
  split
  · rename_i e; cases e
  · rename_i e; cases e
    cases pendingCause s r <;> rfl

/-- Settles O15: the mark by the reported view, and the reasons of TABLE 17 in their order. -/
theorem agreementAndBlockingReason : Obligations.AgreementAndBlockingReason := by
  intro s k
  refine ⟨rfl, agreement_of_unreported, fun v reported => ⟨fun unknown => ?_, fun known same => ?_, fun known other => ?_⟩,
    fun empty => ?_, fun r q window => ?_⟩
  · simp only [agreement, reported, (viewUnknown_iff s v).mpr unknown, if_true]
  · simp only [agreement, reported, Bool.not_eq_true _ ▸ mt (viewUnknown_iff s v).mp known]
    exact if_pos same
  · simp only [agreement, reported, Bool.not_eq_true _ ▸ mt (viewUnknown_iff s v).mp known]
    exact if_neg other
  · unfold blockReason; rw [window_eq, empty]
  · have opened : ¬(((s.cranes[k]).mode ≠ .inService ∨ (s.cranes[k]).held = true ∨
        (∃ d, (s.cranes[k]).directive = some d ∧ d.kind = .withdraw) ∨ (s.cranes[k]).fault = true ∨
        stationState s (.crane k) ≠ .active ∨ s.berth.state ≠ .running)) ↔ craneOpen s k = true := by
      rw [craneOpen_iff]
      push Not
      simp only [Bool.not_eq_true]
    rw [blockReason_of_cons window]
    refine ⟨fun held => ?_, fun free pending after => ?_, fun free pending after lashed => ?_,
      fun free pending after lashed gang => ?_, fun free ready needs lane => ?_, fun free ready needs => ?_⟩
    · have shut : craneOpen s k = false := by
        rw [← Bool.not_eq_true, ← opened, not_not]; exact held
      simp [shut]
    · simp [opened.mp free, pendingCause_of_pending pending, failingCause_precedence after]
    · simp [opened.mp free, pendingCause_of_pending pending, failingCause_lashing after lashed]
    · simp [opened.mp free, pendingCause_of_pending pending, failingCause_gang after lashed gang]
    · simp [opened.mp free, pendingCause_of_not_pending (s := s) (r := r) (by simp [ready]),
        (laneSettled_eq_false_iff r).mpr needs, (laneFound_eq_none_iff s k).mpr lane]
    · have settled : (!laneSettled r && (laneFound s k).isNone) = false := by
        cases seeks : laneSettled r with
        | true => rfl
        | false =>
          obtain ⟨l, found⟩ := needs ((laneSettled_eq_false_iff r).mp seeks)
          simp [(laneFound_eq_some_iff s k l).mpr found]
      simp [opened.mp free, pendingCause_of_not_pending (s := s) (r := r) (by simp [ready]), settled]

end Sys2Proof.Machine

/-! PROOFS. Cycle times (R50), the call check (R55 to R58), the defer timer (R43) and the handover (R89). -/

namespace Sys2Proof.Machine

/-! ### Smoothing (R50) -/

/-- The product of a distance and a weight of 1 to 16 lies between 0 and sixteen times the distance. -/
theorem weighted_between {d : Int} {w : Nat} (low : 1 ≤ w) (high : w ≤ 16) :
    (0 ≤ d → 0 ≤ d * w ∧ d * w ≤ 16 * d) ∧ (d < 0 → d * w < 0 ∧ 16 * d ≤ d * w) := by
  refine ⟨fun up => ⟨by positivity, ?_⟩, fun down => ⟨?_, ?_⟩⟩ <;> nlinarith

/-- R50: the correction is the nearest sixteenth, ties away from zero. -/
theorem correction_nearest (d : Int) (w : Nat) : |32 * correction d w - 2 * (d * w)| ≤ 16 ∧
    (|32 * correction d w - 2 * (d * w)| = 16 → |2 * (d * w)| < |32 * correction d w|) := by
  unfold correction
  generalize d * (w : Int) = x
  simp only [abs_le, abs_lt, lt_abs, abs_eq (show (0 : Int) ≤ 16 by decide)]
  split <;> omega

/-- R50: the correction never passes the distance. -/
theorem correction_between {d : Int} {w : Nat} (low : 1 ≤ w) (high : w ≤ 16) :
    (0 ≤ d → 0 ≤ correction d w ∧ correction d w ≤ d) ∧ (d < 0 → correction d w ≤ 0 ∧ d ≤ correction d w) := by
  obtain ⟨up, down⟩ := weighted_between (d := d) low high
  unfold correction
  generalize d * (w : Int) = x at up down
  constructor
  · intro h
    have bounds := up h
    simp only [if_pos bounds.1]
    omega
  · intro h
    have bounds := down h
    simp only [if_neg (not_le.mpr bounds.1)]
    omega

/-- Within the limits the clamp of R50 changes nothing: the correction alone is made. -/
theorem smooth_eq {s : State} {old m : Nat} (weight : 1 ≤ par s Config.SMOOTH_WEIGHT)
    (weight' : par s Config.SMOOTH_WEIGHT ≤ 16) (ends : par s Config.CYCLE_MIN ≤ par s Config.CYCLE_MAX)
    (low : 16 * par s Config.CYCLE_MIN ≤ old) (high : old ≤ 16 * par s Config.CYCLE_MAX) :
    (smooth s old m : Int) = old + correction
      ((16 * clamp (par s Config.CYCLE_MIN) (par s Config.CYCLE_MAX) m : Nat) - (old : Int)) (par s Config.SMOOTH_WEIGHT) := by
  obtain ⟨lo, hi⟩ := clamp_le ends (v := m)
  obtain ⟨up, down⟩ := correction_between
    (d := (16 * clamp (par s Config.CYCLE_MIN) (par s Config.CYCLE_MAX) m : Nat) - (old : Int)) weight weight'
  simp only [smooth, clamp] at *
  push_cast at *
  omega

/-- Settles O16: `smooth` is the old value with the correction, and the correction lies between 0 and the distance. -/
theorem smoothingMovesTowardsTheMeasurement : Obligations.SmoothingMovesTowardsTheMeasurement := by
  intro s old m weight weight' ends low high
  have eq := smooth_eq (m := m) weight weight' ends low high
  obtain ⟨up, down⟩ := correction_between
    (d := (16 * clamp (par s Config.CYCLE_MIN) (par s Config.CYCLE_MAX) m : Nat) - (old : Int)) weight weight'
  refine ⟨⟨_, eq, correction_nearest _ _⟩, ?_, ?_⟩ <;> omega

end Sys2Proof.Machine

namespace Sys2Proof.Machine

/-! ### Reading rows and records after an operation -/

theorem Vector.ext_get {α : Type} {n : Nat} {v w : Vector α n} (h : ∀ i : Fin n, v[i] = w[i]) : v = w :=
  Vector.ext fun i hi => h ⟨i, hi⟩

theorem Vector.ofFn_get {α : Type} {n : Nat} (f : Fin n → α) (i : Fin n) : (Vector.ofFn f)[i] = f i := by simp

theorem findIn_mapMoves {f : MoveRecord → MoveRecord} (number : ∀ r, (f r).number = r.number) (s : State) (k : CraneNo)
    (n : MoveNo) : findIn (mapMoves f s) k n = (findIn s k n).map f := by
  simp only [findIn, mapMoves_get, List.find?_map, Function.comp_def, number]

theorem findIn_modMove {f : MoveRecord → MoveRecord} (number : ∀ r, (f r).number = r.number) (s : State) (k : CraneNo)
    (n : MoveNo) : findIn (modMove n f s) k n = (findIn s k n).map f := by
  rw [modMove, findIn_mapMoves (fun r => by split <;> simp only [number])]
  cases found : findIn s k n with
  | none => rfl
  | some r => simp [(findIn_mem found).2]

theorem queueNumbers_mapMoves {f : MoveRecord → MoveRecord} (number : ∀ r, (f r).number = r.number) (s : State)
    (k : CraneNo) : queueNumbers (mapMoves f s) k = queueNumbers s k := by
  simp [queueNumbers, Function.comp_def, number]

theorem modCrane_modCrane (k : CraneNo) (f g : Crane → Crane) (s : State) :
    modCrane k f (modCrane k g s) = modCrane k (fun c => f (g c)) s := by
  simp [modCrane]

/-! ### The reservation of a slot (R86) -/

/-- The lanes once a slot of lane `l` has been reserved for move `n` of crane `k`. -/
def reservedLanes (k : CraneNo) (n : MoveNo) (l : LaneNo) (s : State) : Vector Lane 16 := Vector.ofFn fun m =>
  { s.lanes[m] with
    slot := if m = l then .reserved n else (s.lanes[m]).slot
    owner := if m = l ∧ (s.lanes[m]).use.sharedBy k = true ∧ (s.lanes[m]).owner = none then some k else (s.lanes[m]).owner
    request := (s.lanes[m]).request.filter fun q => decide (q ≠ ⟨k, n⟩) }

theorem setSlot_of_signal {l : LaneNo} {x : Slot} {s : State} (h : x.signal = (s.lanes[l]).slot.signal) :
    setSlot l x s = modLane l (fun y => { y with slot := x }) s := by
  rw [setSlot_eq_slotWritten]; exact if_pos (.inl h)

theorem reserve_lanes (k : CraneNo) (n : MoveNo) (l : LaneNo) (s : State) :
    (reserve k n l s).lanes = reservedLanes k n l s := by
  have request : ∀ q : Request, (!decide (q.crane = k ∧ q.move = n)) = decide (q ≠ ⟨k, n⟩) := by
    rintro ⟨j, m⟩; simp
  refine Vector.ext_get fun m => ?_
  rw [reservedLanes, Vector.ofFn_get]
  simp only [reserve, withdrawRequests]
  rw [mapLanes_get, modLane_get]
  simp only [modMove_lanes, request]
  by_cases e : m = l
  · subst e
    simp only [if_true, setSlot_get, true_and, Bool.and_eq_true, Option.isNone_iff_eq_none]
  · simp only [e, setSlot_get, false_and, if_false]

/-- R86: a slot reserved in a FREE lane shows the same signal, so that the lanes and the record are all that changes. -/
theorem reserve_eq (k : CraneNo) (n : MoveNo) (l : LaneNo) {s : State} {b : Bool} (free : (s.lanes[l]).slot = .free b) :
    reserve k n l s = modMove n (fun r => { r with lane := some l, called := false })
      { s with lanes := reservedLanes k n l s } := by
  rw [← reserve_lanes, reserve, setSlot_of_signal (by rw [free]; rfl)]
  rfl

theorem FindsLane.free {s : State} {k : CraneNo} {l : LaneNo} (h : FindsLane s k l) : (s.lanes[l]).slot = .free false := by
  rcases h with ⟨⟨free, _⟩, _⟩ | ⟨⟨free, _⟩, _⟩ <;> exact free

theorem not_home_of_sharedBy {s : State} {k : CraneNo} {l : LaneNo} (h : SharedBy s k l) (j : CraneNo) :
    (s.lanes[l]).use ≠ .home j := by
  obtain ⟨i, use, _⟩ := h
  rw [use]; exact LaneUse.noConfusion

/-- The owner that a reservation leaves, in the words of R86: an unowned shared lane is taken. -/
theorem FindsLane.owner {s : State} {k : CraneNo} {l : LaneNo} (h : FindsLane s k l) (n : MoveNo) :
    ((reservedLanes k n l s)[l]).owner = if (s.lanes[l]).owner = none then
      if (s.lanes[l]).use = .home k then none else some k else (s.lanes[l]).owner := by
  rw [reservedLanes, Vector.ofFn_get]
  rcases h with ⟨⟨_, home, _⟩, _⟩ | ⟨⟨_, shared, _⟩, _⟩
  · have unshared : (s.lanes[l]).use.sharedBy k = false := by rw [home]; rfl
    simp only [unshared, if_pos home, Bool.false_eq_true, false_and, and_false, if_false]
    exact (ite_eq_right_iff.mpr Eq.symm).symm
  · simp only [(sharedBy_iff s k l).mpr shared, if_neg (not_home_of_sharedBy shared k), true_and]

theorem reservedLanes_other {k : CraneNo} {n : MoveNo} {l m : LaneNo} {s : State} (other : m ≠ l) :
    ((reservedLanes k n l s)[m]).slot = (s.lanes[m]).slot ∧ ((reservedLanes k n l s)[m]).owner = (s.lanes[m]).owner := by
  rw [reservedLanes, Vector.ofFn_get]
  simp only [other, false_and, if_false, and_self]

theorem reservedLanes_slot (k : CraneNo) (n : MoveNo) (l : LaneNo) (s : State) :
    ((reservedLanes k n l s)[l]).slot = .reserved n := by
  rw [reservedLanes, Vector.ofFn_get]; exact if_pos rfl

/-- What a reservation leaves of every lane, in the words of the statements. -/
theorem reservedLanes_rest (k : CraneNo) (n : MoveNo) (l m : LaneNo) (s : State) :
    (reservedLanes k n l s)[m] = { s.lanes[m] with
      slot := ((reservedLanes k n l s)[m]).slot
      owner := ((reservedLanes k n l s)[m]).owner
      request := (s.lanes[m]).request.filter fun q => decide (q ≠ ⟨k, n⟩) } := by
  rw [reservedLanes, Vector.ofFn_get]

/-! ### The steps of a call check (R55, R57, R58) -/

theorem checkReserve_of_unneeded {s : State} {k : CraneNo} {n : MoveNo} {r : MoveRecord} (found : findIn s k n = some r)
    (h : ¬NeedsLane r ∨ r.lane.isSome = true) : checkReserve k n s = s := by
  have skip : (laneNeed r && r.lane.isNone) = false := by
    rw [← Bool.not_eq_true, Bool.and_eq_true, laneNeed_iff]
    rintro ⟨needs, without⟩
    rcases h with h | h
    · exact h needs
    · simp [Option.isNone_iff_eq_none.mp without] at h
  simp [checkReserve, found, skip]

theorem checkReserve_of_found {s : State} {k : CraneNo} {n : MoveNo} {r : MoveRecord} {l : LaneNo}
    (found : findIn s k n = some r) (needs : NeedsLane r) (without : r.lane = none) (lane : FindsLane s k l) :
    checkReserve k n s = reserve k n l s := by
  simp [checkReserve, found, (laneNeed_iff r).mpr needs, without, (laneFound_eq_some_iff s k l).mpr lane]

theorem checkReserve_of_not_found {s : State} {k : CraneNo} {n : MoveNo} {r : MoveRecord}
    (found : findIn s k n = some r) (needs : NeedsLane r) (without : r.lane = none) (lane : ∀ l, ¬FindsLane s k l) :
    checkReserve k n s = raiseRequest k n s := by
  simp [checkReserve, found, (laneNeed_iff r).mpr needs, without, (laneFound_eq_none_iff s k).mpr lane]

theorem checkCall_of_unneeded {s : State} {k : CraneNo} {n : MoveNo} {r : MoveRecord} (a : Nat)
    (found : findIn s k n = some r) (h : ¬NeedsLane r) : checkCall k n a s = s := by
  have skip : laneNeed r = false := by rw [← Bool.not_eq_true, laneNeed_iff]; exact h
  cases lane : r.lane <;> simp [checkCall, found, lane, skip]

theorem checkCall_of_due {s : State} {k : CraneNo} {n : MoveNo} {r : MoveRecord} {a : Nat} {l : LaneNo}
    (found : findIn s k n = some r) (needs : NeedsLane r) (lane : r.lane = some l) (slot : (s.lanes[l]).slot = .reserved n)
    (soon : a ≤ (s.lanes[l]).travel + par s Config.CALL_MARGIN) : checkCall k n a s = issueCall r l a s := by
  simp only [checkCall, found, lane]
  exact if_pos ⟨(laneNeed_iff r).mpr needs, slot, soon⟩

theorem checkCall_of_not_due {s : State} {k : CraneNo} {n : MoveNo} {r : MoveRecord} {a : Nat} {l : LaneNo}
    (found : findIn s k n = some r) (lane : r.lane = some l)
    (h : ¬((s.lanes[l]).slot = .reserved n ∧ a ≤ (s.lanes[l]).travel + par s Config.CALL_MARGIN)) :
    checkCall k n a s = s := by
  simp only [checkCall, found, lane]
  exact if_neg fun due => h due.2

theorem boxesToBring_eq {r : MoveRecord} (needs : NeedsLane r) : boxesToBring r = if r.kind = .discharge then [] else
    (r.legs.take 1).flatMap fun x => x.box1.identifier :: (x.box2.map (·.identifier)).toList := by
  cases kind : r.kind with
  | restow => simp [NeedsLane, kind] at needs
  | _ => simp [boxesToBring, kind]

theorem aheadTimes_length (s : State) (k : CraneNo) : ∀ (a : Nat) (q : List MoveRecord),
    (aheadTimes s k a q).length = q.length
  | _, [] => rfl
  | a, r :: rs => by
    unfold aheadTimes
    split <;> simp [aheadTimes_length s k _ rs]

/-- R55: the ahead time of a move counts the non-ACTIVE moves before it. -/
theorem aheadTimes_get (s : State) (k : CraneNo) (r : MoveRecord) (q : List MoveRecord) : ∀ (p : List MoveRecord) (a : Nat),
    (aheadTimes s k a (p ++ r :: q))[p.length]? = some (r.number, if r.state = .active then 0
      else a + ((p.filter fun x => decide (x.state ≠ .active)).map fun x => expected s k x.kind).sum)
  | [], a => by
    simp only [List.nil_append, aheadTimes, List.length_nil, List.filter_nil, List.map_nil, List.sum_nil, Nat.add_zero]
    split <;> rfl
  | x :: p, a => by
    have ih := aheadTimes_get s k r q p
    simp only [List.cons_append, aheadTimes, List.length_cons]
    by_cases active : x.state = .active
    · simp [active, ih a]
    · simp only [active, if_false, List.getElem?_cons_succ, ih, ne_eq, not_false_eq_true, decide_true,
        List.filter_cons_of_pos, List.map_cons, List.sum_cons, Nat.add_assoc]

theorem remainder_of_found {s : State} {k : CraneNo} {n : MoveNo} {r : MoveRecord} {a : Clock}
    (active : (s.cranes[k]).active = some n) (found : findIn s k n = some r) (activation : r.activation = some a) :
    remainder s k = expected s k r.kind - age s.clock a := by
  simp only [remainder, active, Option.bind_some, found, activation, Option.map_some, Option.getD_some]

theorem checkAllowed_iff (s : State) (k : CraneNo) : checkAllowed s k = true ↔ (s.cranes[k]).mode = .inService ∧
    stationState s (.crane k) ≠ .silent ∧ s.berth.state = .running := by
  simp only [checkAllowed, Bool.and_eq_true, decide_eq_true_eq, and_assoc]

theorem checkMoves_eq (k : CraneNo) (s : State) : checkMoves k s =
    (aheadTimes s k (remainder s k) (horizonOf s k)).foldl (fun x m => checkCall k m.1 m.2 (checkReserve k m.1 x))
      (withoutStale k s) := by
  rw [checkMoves, dropStaleRequest_eq, horizon_eq]

theorem reservedBetween_iff (s t : State) (k : CraneNo) : reservedBetween s t k = true ↔
    ∃ r ∈ s.queues[k], r.lane = none ∧ ∃ r' ∈ t.queues[k], r'.number = r.number ∧ r'.lane.isSome = true := by
  simp only [reservedBetween, List.any_eq_true, Bool.and_eq_true, decide_eq_true_eq, Option.isNone_iff_eq_none]
  constructor
  · rintro ⟨r', mem', lane', r, mem, number, lane⟩
    exact ⟨r, mem, lane, r', mem', number.symm, lane'⟩
  · rintro ⟨r, mem, lane, r', mem', number, lane'⟩
    exact ⟨r', mem', lane', r, mem, number.symm, lane⟩

/-- A state that does nothing, makes the check, and evaluates the crane exactly where `CallChecked` has it is such a state. -/
theorem callChecked_of_ite {k : CraneNo} {s t : State} (h : t = if checkAllowed s k then
    (if reservedBetween s (checkMoves k s) k then evaluate k (checkMoves k s) else checkMoves k s) else s) :
    CallChecked k s t := by
  unfold CallChecked
  rw [← checkMoves_eq, ← checkAllowed_iff]
  refine ⟨fun shut => ?_, fun opened kept => ?_, fun opened r mem lane gained => ?_⟩
  · rw [h, if_neg shut]
  · rw [h, if_pos opened, if_neg]
    rw [reservedBetween_iff]
    rintro ⟨r, mem, lane, r', mem', number, lane'⟩
    simp [kept r mem lane r' mem' number] at lane'
  · rw [h, if_pos opened, if_pos ((reservedBetween_iff ..).mpr ⟨r, mem, lane, gained⟩)]

theorem callCheck_callChecked (k : CraneNo) (s : State) : CallChecked k s (callCheck k s) := callChecked_of_ite rfl

theorem periodicDue_iff (s : State) : periodicDue s = true ↔ s.clock ≠ 0 ∧ s.clock.toNat % 10 = 0 := decide_eq_true_iff

theorem periodicCallCheck_of_due {k : CraneNo} {s : State} (awoken : s.resetAsserted = false) (started : s.clock ≠ 0)
    (tenth : s.clock.toNat % 10 = 0) : exec (.periodicCallCheck k) s = .next (callCheck k s) :=
  next_awake awoken (if_pos ((periodicDue_iff s).mpr ⟨started, tenth⟩))

/-- Settles O17: each step of the check at its own lemma. -/
theorem callCheckTakesTheHorizon : Obligations.CallCheckTakesTheHorizon := by
  intro s k
  refine ⟨fun idle => by simp only [remainder, idle, Option.bind_none], fun n r a => remainder_of_found,
    ⟨aheadTimes_length .., fun p r q split => ?_⟩, fun n r a found => ⟨fun unneeded => ?_, fun _ holds => ?_,
    fun l needs without lane => ?_, fun needs without lane => ⟨fun none => ?_, fun l standing owned lowest => ?_⟩,
    fun l needs lane => ⟨fun due => ?_, fun notDue => ?_⟩⟩,
    fun awoken => ⟨fun notDue => ?_, fun started tenth => ?_⟩⟩
  · rw [split]; exact aheadTimes_get s k r q p _
  · rw [checkReserve_of_unneeded found (.inl unneeded), checkCall_of_unneeded a found unneeded]
  · exact checkReserve_of_unneeded found (.inr holds)
  · simp only [checkReserve_of_found found needs without lane, reserve_lanes]
    exact ⟨reservedLanes_slot .., FindsLane.owner lane n, fun m => ⟨reservedLanes_rest .., reservedLanes_other⟩,
      reserve_eq k n l (FindsLane.free lane)⟩
  · rw [checkReserve_of_not_found found needs without lane, raiseRequest_of_none n none]
  · rw [checkReserve_of_not_found found needs without lane, raiseRequest_of_owned n standing owned lowest]; rfl
  · rw [checkCall_of_due found needs lane due.1 due.2, issueCall, boxesToBring_eq needs, setSlot_eq_slotWritten,
      (findIn_mem found).2]
  · exact checkCall_of_not_due found lane notDue
  · refine next_awake awoken (if_neg fun due => ?_)
    obtain ⟨started, tenth⟩ := (periodicDue_iff s).mp due
    rcases notDue with stopped | between
    · exact started stopped
    · exact between tenth
  · exact ⟨_, periodicCallCheck_of_due awoken started tenth, callCheck_callChecked k s⟩

end Sys2Proof.Machine

namespace Sys2Proof.Machine

/-! ### The one move of a crane is called (R57, R58) -/

theorem withoutStale_of_none {k : CraneNo} {s : State}
    (h : ∀ (l : LaneNo) (q : Request), (s.lanes[l]).request = some q → q.crane ≠ k) : withoutStale k s = s := by
  have lanes : (withoutStale k s).lanes = s.lanes := Vector.ext_get fun l => by
    rw [withoutStale, Vector.ofFn_get]
    cases standing : (s.lanes[l]).request with
    | none => rw [Option.filter_none, ← standing]
    | some q =>
      rw [Option.filter_some, if_pos (decide_eq_true (.inl (h l q standing))), ← standing]
  calc withoutStale k s = { s with lanes := (withoutStale k s).lanes } := rfl
    _ = s := by rw [lanes]

/-- A call check of a crane whose one move is ACTIVE and holds a RESERVED slot issues the call. -/
theorem callCheck_of_single {k : CraneNo} {s : State} {r : MoveRecord} {l : LaneNo} (allowed : checkAllowed s k = true)
    (queue : s.queues[k] = [r]) (active : r.state = .active) (needs : laneNeed r = true) (lane : r.lane = some l)
    (slot : (s.lanes[l]).slot = .reserved r.number) (depth : 1 ≤ par s Config.CALL_DEPTH)
    (requests : ∀ (l' : LaneNo) (q : Request), (s.lanes[l']).request = some q → q.crane ≠ k) :
    callCheck k s = issueCall r l 0 s := by
  have horizon : horizonOf s k = [r] := by
    rw [horizonOf, queue]; exact List.take_of_length_le (by simpa using depth)
  have found : findIn s k r.number = some r := by rw [findIn, queue]; simp
  have moves : checkMoves k s = issueCall r l 0 s := by
    rw [checkMoves_eq, horizon, withoutStale_of_none requests]
    simp only [aheadTimes, active, if_true, List.foldl_cons, List.foldl_nil]
    rw [checkReserve_of_unneeded found (.inr (by simp [lane])),
      checkCall_of_due found ((laneNeed_iff r).mp needs) lane slot (Nat.zero_le _)]
  have kept : reservedBetween s (issueCall r l 0 s) k = false := by
    rw [← Bool.not_eq_true, reservedBetween_iff, queue]
    rintro ⟨x, mem, without, _⟩
    rw [List.mem_singleton.mp mem, lane] at without
    cases without
  rw [callCheck, if_pos allowed]
  simp only [moves, kept, Bool.false_eq_true, if_false]

/-- Settles O18: the check is not made, keeps within the frame, or issues the one call. -/
theorem periodicCallCheckCalls : Obligations.PeriodicCallCheckCalls := by
  intro k s awoken started tenth
  rw [periodicCallCheck_of_due awoken started tenth]
  refine ⟨fun shut => ?_, ⟨_, rfl, (callCheck_quiet k s).workFrame, (callCheck_quiet k s).uplink⟩,
    fun r l mode station berth queue active needs lane slot use depth requests => ⟨_, rfl, ?_⟩⟩
  · rw [callCheck, if_neg (by rwa [checkAllowed_iff])]
  · have call := callCheck_of_single ((checkAllowed_iff s k).mpr ⟨mode, station, berth⟩) queue active needs lane slot depth
      requests
    have frame := (callCheck_quiet k s).workFrame
    have uplink := (callCheck_quiet k s).uplink
    rw [call] at frame uplink ⊢
    have signal : ¬((Slot.called r.number).signal = (s.lanes[l]).slot.signal ∨ (s.lanes[l]).use = .unused) := by
      rw [slot]; exact not_or.mpr ⟨by simp [Slot.signal], use⟩
    refine ⟨fun j => ?_, ?_, fun u => ?_, ?_, ?_, ?_, ?_, ?_, ?_, frame, uplink⟩
    · simp only [issueCall, report_lanes, modMove_lanes, setSlot_get]
    · simp only [issueCall, report_queues, modMove, mapMoves_get, setSlot_queues, queue, List.map_cons, if_true,
        List.map_nil]
    · simp only [issueCall, report_gateMarks, modMove_gateMarks, setSlot_eq_slotWritten, slotWritten, if_neg signal]
      exact Vector.get_set ..
    · exact report_reports_congr _ (by simp) (by simp) (by simp)
    all_goals simp [issueCall]

/-! ### The defer timer (R43) -/

theorem withoutStale_get (k : CraneNo) (s : State) (l : LaneNo) : (withoutStale k s).lanes[l] = { s.lanes[l] with
    request := (s.lanes[l]).request.filter fun q =>
      decide (q.crane ≠ k ∨ q.move ∈ (horizonOf s k ++ windowOf s k).map (·.number)) } := by
  rw [withoutStale, Vector.ofFn_get]

theorem findIn_withoutStale (k j : CraneNo) (n : MoveNo) (s : State) : findIn (withoutStale k s) j n = findIn s j n := rfl

/-- Requests of crane `k` do not bear on the lane found for it. -/
theorem laneFound_withoutStale (k : CraneNo) (s : State) : laneFound (withoutStale k s) k = laneFound s k := by
  have other : ∀ l : LaneNo, ((withoutStale k s).lanes[l]).request.any (fun q => decide (q.crane ≠ k)) =
      (s.lanes[l]).request.any fun q => decide (q.crane ≠ k) := by
    intro l
    rw [withoutStale_get]
    cases (s.lanes[l]).request with
    | none => rfl
    | some q => by_cases mine : q.crane = k <;> simp [Option.filter_some, mine, apply_ite]
  have shared : ∀ l : LaneNo, sharedOpen (withoutStale k s) k l = sharedOpen s k l := by
    intro l
    simp only [sharedOpen, other]
    simp only [withoutStale_get]
  have home : ∀ l : LaneNo, homeLane (withoutStale k s) k l = homeLane s k l := by
    intro l
    simp only [homeLane, withoutStale_get]
    rfl
  have slot : ∀ l : LaneNo, ((withoutStale k s).lanes[l]).slot = (s.lanes[l]).slot := by
    intro l; rw [withoutStale_get]
  simp only [laneFound_eq, shared, home, slot]

/-- The blocking reason does not read the crane's timers and marks, nor its own requests. -/
theorem blockReason_withoutStale (k : CraneNo) (s : State) (f : Crane → Crane)
    (same : ∀ c, (f c).mode = c.mode ∧ (f c).held = c.held ∧ (f c).directive = c.directive ∧ (f c).fault = c.fault) :
    blockReason (withoutStale k (modCrane k f s)) k = blockReason s k := by
  have opened : craneOpen (withoutStale k (modCrane k f s)) k = craneOpen s k := by
    obtain ⟨mode, held, directive, fault⟩ := same s.cranes[k]
    simp only [craneOpen, withdrawPending]
    rw [show (withoutStale k (modCrane k f s)).cranes[k] = f s.cranes[k] from modCrane_same k f s, mode, held, directive,
      fault]
    rfl
  have lane : laneFound (withoutStale k (modCrane k f s)) k = laneFound s k := laneFound_withoutStale k (modCrane k f s)
  cases window : windowOf s k with
  | nil =>
    have window' : windowOf (withoutStale k (modCrane k f s)) k = [] := window
    simp only [blockReason, window_eq, window, window']
  | cons r q =>
    have window' : windowOf (withoutStale k (modCrane k f s)) k = r :: q := window
    rw [blockReason_of_cons window, blockReason_of_cons window', opened, lane]
    rfl

theorem deferDue_iff (s : State) (k : CraneNo) : deferDue s k = true ↔
    ∃ c, (s.cranes[k]).deferStart = some c ∧ par s Config.DEFER_LIMIT ≤ age s.clock c := by
  simp only [deferDue, Option.any_eq_true, decide_eq_true_eq]

theorem releaseCondition_modCrane (k : CraneNo) (f : Crane → Crane) (s : State)
    (same : (f s.cranes[k]).mode = (s.cranes[k]).mode ∧ (f s.cranes[k]).held = (s.cranes[k]).held ∧
      (f s.cranes[k]).directive = (s.cranes[k]).directive ∧ (f s.cranes[k]).fault = (s.cranes[k]).fault ∧
      (f s.cranes[k]).staged = (s.cranes[k]).staged) :
    releaseCondition (modCrane k f s) k = releaseCondition s k := by
  obtain ⟨mode, held, directive, fault, staged⟩ := same
  simp only [releaseCondition, craneOpen, withdrawPending, modCrane_same, mode, held, directive, fault, staged]
  rfl

/-- Settles O19: the expiry is an evaluation of the crane with its timer stopped, which a closed release condition cuts to
the withdrawal of stale requests. -/
theorem deferTimerExpires : Obligations.DeferTimerExpires := by
  intro k s awoken
  refine ⟨fun c started late => ?_, fun early => ?_⟩
  · have run : exec (.deferTimerExpiry k) s = .next (deferExpires k s) :=
      next_awake awoken (if_pos ((deferDue_iff s k).mpr ⟨c, started, late⟩))
    have closedRun : releaseCondition s k = false →
        evaluate k (modCrane k (fun x => { x with deferStart := none }) s) =
          modCrane k (fun x => { x with deferStart := none }) (withoutStale k s) := fun closed =>
      evaluate_of_closed (by rw [releaseCondition_modCrane k _ s ⟨rfl, rfl, rfl, rfl, rfl⟩]; exact closed)
    have active : ((modCrane k (fun x => { x with deferStart := none }) (withoutStale k s)).cranes[k]).active =
        (s.cranes[k]).active := by rw [modCrane_same]; rfl
    rw [run]
    refine ⟨⟨rfl, ?_⟩, fun closed empty => ?_, fun closed filled => ?_⟩
    · have stopped := ((evaluate_quiet k (modCrane k (fun x => { x with deferStart := none }) s)).crane k).defer
      rw [modCrane_same] at stopped
      exact stopped.elim id id
    · have reason := blockReason_withoutStale k s (fun x => { x with deferStart := none }) fun _ => ⟨rfl, rfl, rfl, rfl⟩
      simp only [deferExpires, closedRun closed, active, empty]
      refine congrArg _ (Eq.trans ?_ (modCrane_modCrane k (fun x => { x with waitMark := some (blockReason s k) })
        (fun x => { x with deferStart := none }) (withoutStale k s)))
      exact congrArg (fun b => modCrane k (fun x => { x with waitMark := some b }) _) reason
    · simp only [deferExpires, closedRun closed, active, filled, if_true]
  · refine next_awake awoken (if_neg fun due => ?_)
    obtain ⟨c, started, late⟩ := (deferDue_iff s k).mp due
    exact absurd late (not_le.mpr (early c started))

/-! ### The handover (R89) -/

/-- The state once lane `l` has passed to the crane of request `q`. -/
def passedOver (l : LaneNo) (q : Request) (s : State) : State :=
  modLane l (fun x => { x with owner := some q.crane, request := none }) s

theorem handover_of_due {l : LaneNo} {s : State} {b : Bool} {q : Request} (awoken : s.resetAsserted = false)
    (free : (s.lanes[l]).slot = .free b) (request : (s.lanes[l]).request = some q) :
    exec (.handover l) s = .next (handOver l q s) :=
  next_awake awoken (by simp only [handoverFalls, free, request])

theorem handOver_of_unneeded {l : LaneNo} {q : Request} {s : State}
    (h : ∀ r, findIn s q.crane q.move = some r → r.lane.isSome = true ∨ ¬NeedsLane r) :
    handOver l q s = passedOver l q s := by
  have same : findIn (passedOver l q s) q.crane q.move = findIn s q.crane q.move := rfl
  simp only [handOver]
  rw [show findIn (modLane l _ s) q.crane q.move = _ from same]
  cases found : findIn s q.crane q.move with
  | none => rfl
  | some r =>
    have skip : (r.lane.isNone && laneNeed r) = false := by
      rw [← Bool.not_eq_true, Bool.and_eq_true, laneNeed_iff]
      rintro ⟨without, needs⟩
      rcases h r found with holds | unneeded
      · simp [Option.isNone_iff_eq_none.mp without] at holds
      · exact unneeded needs
    simp only [skip, Bool.false_eq_true, if_false]; rfl

theorem handOver_of_needed {l : LaneNo} {q : Request} {s : State} {r : MoveRecord}
    (found : findIn s q.crane q.move = some r) (without : r.lane = none) (needs : NeedsLane r) :
    handOver l q s = evaluate q.crane (reserve q.crane q.move l (passedOver l q s)) := by
  have same : findIn (passedOver l q s) q.crane q.move = some r := found
  simp only [handOver]
  rw [show findIn (modLane l _ s) q.crane q.move = _ from same]
  simp only [without, Option.isNone_none, (laneNeed_iff r).mpr needs, Bool.and_self, if_true]; rfl

/-- The lanes once a handed over lane has been reserved. -/
theorem reservedLanes_passedOver {l : LaneNo} {q : Request} {s : State} (request : (s.lanes[l]).request = some q) :
    reservedLanes q.crane q.move l (passedOver l q s) = Vector.ofFn fun m => { s.lanes[m] with
      slot := if m = l then .reserved q.move else (s.lanes[m]).slot
      owner := if m = l then some q.crane else (s.lanes[m]).owner
      request := (s.lanes[m]).request.filter fun x => decide (x ≠ q) } := by
  refine Vector.ext_get fun m => ?_
  rw [reservedLanes, Vector.ofFn_get, Vector.ofFn_get, passedOver, modLane_get]
  by_cases e : m = l
  · subst e
    rw [request, Option.filter_some]; simp
  · simp only [e, if_false, false_and]

theorem handOver_quiet_of_passed (l : LaneNo) (q : Request) (s : State) :
    QReach (passedOver l q s) (handOver l q s) := by
  unfold handOver
  dsimp only
  split
  · split
    · exact (reserve_quiet ..).trans (evaluate_quiet ..)
    · exact .refl
  · exact .refl

/-- Settles O20: the handover up to the reservation, and the evaluation that is told of it. -/
theorem handoverPassesOwnership : Obligations.HandoverPassesOwnership := by
  intro l s awoken
  refine ⟨fun b q free request => ?_, fun notDue => next_awake awoken ?_⟩
  · rw [handover_of_due awoken free request]
    have reserved : reserve q.crane q.move l (passedOver l q s) =
        modMove q.move (fun x => { x with lane := some l, called := false })
          { s with lanes := reservedLanes q.crane q.move l (passedOver l q s) } :=
      reserve_eq q.crane q.move l (s := passedOver l q s) (b := b) (by rw [passedOver, modLane_get, if_pos rfl]; exact free)
    refine ⟨fun unneeded => congrArg _ (handOver_of_unneeded unneeded), ⟨_, rfl, ?_, ?_, ?_⟩, fun r found without needs => ?_,
      fun r found without needs closed => ⟨_, rfl, ?_⟩⟩
    · refine ((handOver_quiet_of_passed l q s).workFrame.lanes l).owner _ ?_
      rw [passedOver, modLane_get, if_pos rfl]
    · exact (handOver_quiet_of_passed l q s).workFrame
    · exact (handOver_quiet_of_passed l q s).uplink
    · rw [handOver_of_needed found without needs, reserved, reservedLanes_passedOver request]
    · have shut : releaseCondition (reserve q.crane q.move l (passedOver l q s)) q.crane = false :=
        (releaseCondition_congr q.crane (reserve_cranes ..) (reserve_stations ..) (reserve_berth ..)).trans closed
      rw [handOver_of_needed found without needs, evaluate_of_closed shut]
      refine ⟨?_, ?_⟩
      · simp only [withoutStale_get, reserve_lanes, reservedLanes_slot]
      · rw [findIn_withoutStale, reserved, findIn_modMove]
        · exact congrArg (Option.map _) found
        · exact fun _ => rfl
  · unfold handoverFalls
    split
    · rename_i b q free request
      rcases notDue with taken | unrequested
      · exact absurd free (taken b)
      · cases unrequested.symm.trans request
    · rfl

end Sys2Proof.Machine


/-! PROOFS. The telegram router: what it does with the head telegram where its mark and kind are given. -/

namespace Sys2Proof.Machine

variable {s : State} {t : Telegram}

/-! ### The head telegram -/

theorem popInbound_eq (s : State) : popInbound s = { s with uplink := takenUplink s.uplink } := by
  simp [popInbound, modUplink, takenUplink, readyAfterLeave]

theorem headTelegram_of_atHead (h : AtHead s t) : headTelegram s = some t := by
  simp [headTelegram, h.placed, h.head]

/-- A RESPONSE is placed in the buffer, or waits where that is full. -/
theorem respond_eq {a : Answer} {u : Uplink} (taken : a.state.uplink = takenUplink u) (placed : u.waiting = none) :
    respond t a = { a.state with uplink := answeredUplink u t a.result a.data a.settings } := by
  unfold respond placeResponse modUplink answeredUplink
  rw [taken]
  cases full : u.buffer with
  | none => simp [takenUplink, full, placed]
  | some r => simp [takenUplink, full]

/-- The unit that answers the head telegram leaves the state of its answer, with the RESPONSE placed. -/
theorem awake_takeHead {unit : Route → Telegram → State → Option Answer} {a : Answer} (h : AtHead s t)
    (answered : unit (route s t) t (popInbound s) = some a) (kept : a.state.uplink = takenUplink s.uplink) :
    awake (takeHead unit) s =
      { a.state with uplink := answeredUplink s.uplink t a.result a.data a.settings } := by
  rw [awake_of_negated _ h.awake]
  unfold takeHead
  rw [headTelegram_of_atHead h]
  simp only [answered]
  exact respond_eq kept h.placed

theorem awake_dropHead {act : Route → Telegram → State → Option State} {u : State} (h : AtHead s t)
    (taken : act (route s t) t { s with uplink := takenUplink s.uplink } = some u) : awake (dropHead act) s = u := by
  rw [awake_of_negated _ h.awake]
  unfold dropHead
  rw [headTelegram_of_atHead h, popInbound_eq]
  simp only [taken, Option.getD_some]

/-- A refusal answers the telegram and changes nothing else. -/
theorem awake_takeHead_refused {unit : Route → Telegram → State → Option Answer} {r : Result} (h : AtHead s t)
    (refused : unit (route s t) t (popInbound s) = some (refuse r (popInbound s))) :
    awake (takeHead unit) s = answeredOnly s t r := by
  rw [awake_takeHead h refused (by rw [popInbound_eq]; rfl), popInbound_eq]
  rfl

/-! ### Routes -/

theorem stationOfMark_mark (st : Station) : stationOfMark st.mark = some st := by
  cases st with
  | crane k => revert k; decide
  | gang g => revert g; decide
  | gate u => revert u; decide

theorem route_of_craneMark {k : CraneNo} (device : t.mark.toNat ≠ par s Config.DEVICE_MARK)
    (named : stationOfMark t.mark = some (.crane k)) : route s t =
    if t.kind = Config.kOrderAdd then .add k
    else if t.kind = Config.kOrderAmend then .amend k
    else if t.kind = Config.kOrderCancel then .cancel k
    else if t.kind = Config.kDirective then .directive k (directiveNamed t.body)
    else if Config.isPassThrough t.kind then (if inRoster s k then .forward else .unused)
    else .unknown := by
  unfold route
  rw [if_neg device, named]

theorem route_of_crane {k : CraneNo} {kind : Byte} (h : ToCrane s t k kind) : route s t =
    if kind = Config.kOrderAdd then .add k
    else if kind = Config.kOrderAmend then .amend k
    else if kind = Config.kOrderCancel then .cancel k
    else if kind = Config.kDirective then .directive k (directiveNamed t.body)
    else if Config.isPassThrough kind then (if inRoster s k then .forward else .unused)
    else .unknown := by
  rw [route_of_craneMark h.device (by rw [h.mark, stationOfMark_mark]), h.kind]

theorem route_of_part {kind : Byte} (h : ToPart s t kind) (known : 0x20 ≤ kind.toNat ∧ kind.toNat ≤ 0x2D) :
    route s t = .management kind := by
  unfold route
  rw [if_pos h.mark, h.kind, if_pos known]

/-! ### Orders, directives and management telegrams -/

/-- A management telegram is answered by the unit's act on the state with the telegram taken. -/
theorem management_answered {kind : Byte} {act : List Byte → State → Answer} {a : Answer} (h : ToPart s t kind)
    (known : 0x20 ≤ kind.toNat ∧ kind.toNat ≤ 0x2D) (answered : act t.body (popInbound s) = a)
    (kept : a.state.uplink = takenUplink s.uplink) :
    awake (takeHead (managementFor kind act)) s =
      { a.state with uplink := answeredUplink s.uplink t a.result a.data a.settings } := by
  refine awake_takeHead h.toAtHead ?_ kept
  rw [route_of_part h known]
  simp only [managementFor, if_true, answered]

theorem management_refused {kind : Byte} {act : List Byte → State → Answer} {r : Result} (h : ToPart s t kind)
    (known : 0x20 ≤ kind.toNat ∧ kind.toNat ≤ 0x2D) (refused : act t.body (popInbound s) = refuse r (popInbound s)) :
    awake (takeHead (managementFor kind act)) s = answeredOnly s t r := by
  refine awake_takeHead_refused h.toAtHead ?_
  rw [route_of_part h known]
  simp only [managementFor, if_true, refused]

theorem withEmptyBody_refused {act : State → Answer} {body : List Byte} (h : body ≠ []) (s : State) :
    withEmptyBody act body s = refuse .range s := if_neg h

theorem withEmptyBody_taken {act : State → Answer} {body : List Byte} (h : body = []) (s : State) :
    withEmptyBody act body s = act s := if_pos h

theorem exec_directive (d : DirectiveKind) (s : State) : exec d.row s = .next (awake (takeHead (directiveFor d)) s) := by
  cases d <;> rfl

/-- The unit that takes a directive is that of the kind its body names. -/
theorem directiveFor_named {k : CraneNo} {d : DirectiveKind} (h : ToCrane s t k Config.kDirective)
    (named : ∀ x, directiveNamed t.body = some x → x = d) (x : State) :
    directiveFor d (route s t) t x = some (takeDirective k t.body x) := by
  have routed : route s t = .directive k (directiveNamed t.body) := by
    rw [route_of_crane h, if_neg (by decide), if_neg (by decide), if_neg (by decide), if_pos rfl]
  rw [routed]
  unfold directiveFor
  cases kind : directiveNamed t.body with
  | none => simp
  | some y => simp [named y kind]

theorem route_add {k : CraneNo} (h : ToCrane s t k Config.kOrderAdd) : route s t = .add k := by
  rw [route_of_crane h, if_pos rfl]

theorem route_amend {k : CraneNo} (h : ToCrane s t k Config.kOrderAmend) : route s t = .amend k := by
  rw [route_of_crane h, if_neg (by decide), if_pos rfl]

theorem route_cancel {k : CraneNo} (h : ToCrane s t k Config.kOrderCancel) : route s t = .cancel k := by
  rw [route_of_crane h, if_neg (by decide), if_neg (by decide), if_pos rfl]

/-! ### Refused orders -/

theorem order_refused {k : CraneNo} {r : Result} (h : ToCrane s t k Config.kOrderAdd)
    (refused : takeAdd k t.body (popInbound s) = refuse r (popInbound s)) :
    exec .orderAdd s = .next (answeredOnly s t r) := by
  refine congrArg Host.Outcome.next (awake_takeHead_refused h.toAtHead ?_)
  rw [route_add h]
  exact congrArg some refused

theorem takeAdd_of_absent {k : CraneNo} (body : List Byte) (absent : (s.cranes[k]).mode = .absent) :
    takeAdd k body s = refuse .state s := by
  unfold takeAdd
  rw [if_pos (by simpa [inRoster] using absent)]

theorem takeAdd_of_unread {k : CraneNo} {body : List Byte} (present : (s.cranes[k]).mode ≠ .absent)
    (unread : readAdd body = none) : takeAdd k body s = refuse .range s := by
  unfold takeAdd
  rw [if_neg (by simpa [inRoster] using present), unread]

theorem takeAdd_of_refused {k : CraneNo} {body : List Byte} {o : AddOrder} {r : Result}
    (present : (s.cranes[k]).mode ≠ .absent) (read : readAdd body = some o) (refused : addRefusal s k o = some r) :
    takeAdd k body s = refuse r s := by
  unfold takeAdd
  rw [if_neg (by simpa [inRoster] using present), read]
  simp only [refused]

theorem takeAdd_of_passed {k : CraneNo} {body : List Byte} {o : AddOrder}
    (present : (s.cranes[k]).mode ≠ .absent) (read : readAdd body = some o) (passed : addRefusal s k o = none) :
    takeAdd k body s = accept (addRecord k o s) := by
  unfold takeAdd
  rw [if_neg (by simpa [inRoster] using present), read]
  simp only [passed]

/-- The RANGE tests of ORDER_ADD fail (R8). -/
def AddOutOfRange (s : State) (k : CraneNo) (o : AddOrder) : Prop :=
  o.number = 0 ∨ legsValid s o.kind o.legs = false ∨ ∃ b, o.beforeMove = some b ∧ b ∉ queueNumbers s k

theorem addOutOfRange_iff (s : State) (k : CraneNo) (o : AddOrder) : AddOutOfRange s k o ↔
    o.number = 0 ∨ (!legsValid s o.kind o.legs) = true ∨
      (o.beforeMove.any fun b => (findIn s k b).isNone) = true := by
  have before : (o.beforeMove.any fun b => (findIn s k b).isNone) = true ↔
      ∃ b, o.beforeMove = some b ∧ b ∉ queueNumbers s k := by
    cases o.beforeMove with
    | none => simp
    | some b => simpa using findIn_isNone_iff s k b
  rw [before, Bool.not_eq_true']
  rfl

theorem addRefusal_range {k : CraneNo} {o : AddOrder} (bad : AddOutOfRange s k o) :
    addRefusal s k o = some .range := if_pos ((addOutOfRange_iff s k o).1 bad)

theorem addRefusal_of_inRange {k : CraneNo} {o : AddOrder} (fits : ¬AddOutOfRange s k o) : addRefusal s k o =
    if o.number ∈ (pool s).map (·.number) then some .duplicate
    else if 512 ≤ (pool s).length ∨ 96 ≤ (s.queues[k]).length then some .full else none := by
  unfold addRefusal
  rw [if_neg (fun bad => fits ((addOutOfRange_iff s k o).2 bad))]
  simp only [inPool_iff]
  rfl

/-- Settles O30: the tests of R8 in their sequence. -/
theorem orderAddRefusedInSequence : Obligations.OrderAddRefusedInSequence := by
  intro s t k h
  refine ⟨fun absent => ?_, fun present unread => ?_, fun o present read => ?_⟩
  · exact order_refused h (takeAdd_of_absent t.body absent)
  · exact order_refused h (takeAdd_of_unread present unread)
  · refine ⟨fun bad => ?_, fun fits twice => ?_, fun fits single full => ?_⟩
    · exact order_refused h (takeAdd_of_refused present read (addRefusal_range (s := popInbound s) bad))
    · refine order_refused h (takeAdd_of_refused present read ?_)
      rw [addRefusal_of_inRange (s := popInbound s) fits]
      exact if_pos twice
    · refine order_refused h (takeAdd_of_refused present read ?_)
      rw [addRefusal_of_inRange (s := popInbound s) fits]
      exact (if_neg single).trans (if_pos full)

/-! ### Refused directives -/

theorem directive_refused {k : CraneNo} {d : DirectiveKind} {r : Result} (h : ToCrane s t k Config.kDirective)
    (named : ∀ x, directiveNamed t.body = some x → x = d)
    (refused : takeDirective k t.body (popInbound s) = refuse r (popInbound s)) :
    exec d.row s = .next (answeredOnly s t r) := by
  rw [exec_directive]
  refine congrArg Host.Outcome.next (awake_takeHead_refused h.toAtHead ?_)
  rw [directiveFor_named h named, refused]

theorem takeDirective_of_absent {k : CraneNo} (body : List Byte) (absent : (s.cranes[k]).mode = .absent) :
    takeDirective k body s = refuse .state s := by
  unfold takeDirective
  rw [if_pos (by simpa [inRoster] using absent)]

theorem takeDirective_of_unread {k : CraneNo} {body : List Byte} (present : (s.cranes[k]).mode ≠ .absent)
    (unread : readDirective body = none) : takeDirective k body s = refuse .range s := by
  unfold takeDirective
  rw [if_neg (by simpa [inRoster] using present), unread]

theorem takeDirective_of_read {k : CraneNo} {body : List Byte} {o : DirectiveOrder}
    (present : (s.cranes[k]).mode ≠ .absent) (read : readDirective body = some o) : takeDirective k body s =
      if (s.cranes[k]).directive.isSome then refuse .busy s else applyDirective k o s := by
  unfold takeDirective
  rw [if_neg (by simpa [inRoster] using present), read]

/-- Settles O33: the tests of R120 in their sequence. -/
theorem directiveRefusedInSequence : Obligations.DirectiveRefusedInSequence := by
  intro s t k d h named
  refine ⟨fun absent => ?_, fun present unread => ?_, fun present read pending => ?_⟩
  · exact directive_refused h named (takeDirective_of_absent t.body absent)
  · exact directive_refused h named (takeDirective_of_unread present unread)
  · obtain ⟨o, read⟩ := Option.isSome_iff_exists.1 read
    refine directive_refused h named ((takeDirective_of_read (s := popInbound s) present read).trans ?_)
    exact if_pos pending

/-! ### ACK_SUMMARY -/

theorem attention_iff (s : State) : attention s = true ↔ ∃ c : Fin 14, par s Config.ATTENTION_LEVEL ≤ classLevel s c ∧
    (s.reports.seen[c] = true ∨ s.reports.lost[c] = true) := by
  simp [attention]

/-- Settles O42: the mask names classes 0 to 13 alone, and attention is the search over the classes. -/
theorem ackSummaryClears : Obligations.AckSummaryClears := by
  refine ⟨fun s t h => ⟨fun short => ?_, fun hi lo body => ⟨fun outside => ?_, fun inside => ?_⟩⟩,
    fun s => ⟨attention_iff s, rfl, fun c => ?_⟩⟩
  · refine congrArg Host.Outcome.next (management_refused h (by decide) ?_)
    unfold takeAckSummary
    split
    · next hi lo same => rw [same] at short; exact absurd rfl short
    · rfl
  · refine congrArg Host.Outcome.next (management_refused h (by decide) ?_)
    rw [body]
    exact if_pos (by unfold of16; omega)
  · refine congrArg Host.Outcome.next (management_answered h (a := accept (clearSummary (of16 hi lo) (popInbound s)))
      (by decide) ?_ (by rw [popInbound_eq]; rfl) |>.trans (by rw [popInbound_eq]; rfl))
    rw [body]
    exact if_neg (by unfold of16; omega)
  · exact dif_pos c.isLt

/-! ### Telegrams that no unit answers -/

theorem route_of_unnamed (device : t.mark.toNat ≠ par s Config.DEVICE_MARK) (unnamed : stationOfMark t.mark = none) :
    route s t = .unused := by
  unfold route
  rw [if_neg device, unnamed]

theorem route_of_station {st : Station} (device : t.mark.toNat ≠ par s Config.DEVICE_MARK)
    (named : stationOfMark t.mark = some st) (noCrane : ∀ k, st ≠ .crane k) :
    route s t = if Config.isPassThrough t.kind then .forward else .unknown := by
  unfold route
  rw [if_neg device, named]
  cases st with
  | crane k => exact absurd rfl (noCrane k)
  | gang g => rfl
  | gate u => rfl

theorem isPassThrough_iff (kind : Byte) :
    Config.isPassThrough kind = true ↔ 0x80 ≤ kind.toNat ∧ kind.toNat ≤ 0xBF := by
  simp [Config.isPassThrough]

/-- A kind that no order and no directive has. -/
theorem route_of_otherKind {k : CraneNo} (device : t.mark.toNat ≠ par s Config.DEVICE_MARK)
    (named : stationOfMark t.mark = some (.crane k)) (other : t.kind ∉ [0x10, 0x11, 0x12, 0x18]) :
    route s t = if Config.isPassThrough t.kind then (if inRoster s k then .forward else .unused) else .unknown := by
  simp only [List.mem_cons, List.not_mem_nil, or_false, not_or] at other
  obtain ⟨add, amend, cancel, directive⟩ := other
  rw [route_of_craneMark device named]
  exact (if_neg add).trans ((if_neg amend).trans ((if_neg cancel).trans (if_neg directive)))

theorem kind_of_passed {kind : Byte} (passed : 0x80 ≤ kind.toNat) : kind ∉ [0x10, 0x11, 0x12, 0x18] := by
  simp only [List.mem_cons, List.not_mem_nil, or_false]
  rintro (rfl | rfl | rfl | rfl) <;> exact absurd passed (by decide)

/-- A pass-through telegram goes to the forward queue where its station may take it. -/
theorem route_of_passed {st : Station} (device : t.mark.toNat ≠ par s Config.DEVICE_MARK)
    (named : stationOfMark t.mark = some st) (passed : Config.isPassThrough t.kind = true)
    (present : ∀ k, st = .crane k → (s.cranes[k]).mode ≠ .absent) : route s t = .forward := by
  by_cases crane : ∃ k, st = .crane k
  · obtain ⟨k, rfl⟩ := crane
    rw [route_of_otherKind device named (kind_of_passed ((isPassThrough_iff _).1 passed).1), if_pos passed,
      if_pos (by simpa [inRoster] using present k rfl)]
  · rw [route_of_station device named (fun k same => crane ⟨k, same⟩), if_pos passed]

theorem route_of_untaken {st : Station} (device : t.mark.toNat ≠ par s Config.DEVICE_MARK)
    (named : stationOfMark t.mark = some st) (passed : ¬Config.isPassThrough t.kind = true)
    (other : (∃ k, st = .crane k) → t.kind ∉ [0x10, 0x11, 0x12, 0x18]) : route s t = .unknown := by
  by_cases crane : ∃ k, st = .crane k
  · obtain ⟨k, rfl⟩ := crane
    rw [route_of_otherKind device named (other ⟨k, rfl⟩), if_neg passed]
  · rw [route_of_station device named (fun k same => crane ⟨k, same⟩), if_neg passed]

theorem refusedUnknown (h : AtHead s t) (routed : route s t = .unknown) :
    exec .routeRefusedUnknown s = .next (answeredOnly s t .unknown) := by
  refine congrArg Host.Outcome.next (awake_takeHead_refused h ?_)
  rw [routed]

/-- Settles O51: each row of TABLE 58 by its route. -/
theorem routerDisposesOfOtherTelegrams : Obligations.RouterDisposesOfOtherTelegrams := by
  intro s t h
  refine ⟨fun st named device passed present => ?_, fun part outside => ?_,
    fun st named device untaken other => ?_, fun device unused => ?_⟩
  · have routed := route_of_passed device named ((isPassThrough_iff _).2 passed) present
    refine ⟨fun room => ?_, fun full => ?_⟩
    · refine congrArg Host.Outcome.next (awake_dropHead h ?_)
      rw [routed]
      exact congrArg some (if_pos room)
    · refine congrArg Host.Outcome.next (awake_dropHead h ?_)
      rw [routed]
      refine congrArg some ((if_neg (Nat.not_lt.2 full)).trans ?_)
      exact report_of_same _ rfl rfl rfl
  · refine refusedUnknown h ?_
    unfold route
    rw [if_pos part, if_neg (by omega)]
  · exact refusedUnknown h (route_of_untaken device named (fun p => untaken ((isPassThrough_iff _).1 p)) other)
  · have routed : route s t = .unused := by
      rcases unused with unnamed | ⟨passed, k, named, absent⟩
      · exact route_of_unnamed device unnamed
      · rw [route_of_otherKind device named (kind_of_passed passed.1), if_pos ((isPassThrough_iff _).2 passed),
          if_neg (by simpa [inRoster] using absent)]
    refine congrArg Host.Outcome.next (awake_dropHead h ?_)
    rw [routed]
    exact congrArg some (report_of_same _ rfl rfl rfl)

end Sys2Proof.Machine


/-! PROOFS. The move table, the lanes, the lashing table, the release unit and the berth hold unit neither read nor write
the uplink port: what they do is the same whatever the uplink holds. -/

namespace Sys2Proof.Machine

/-- The state with another uplink port. -/
def withUplink (u : Uplink) (s : State) : State := { s with uplink := u }

/-- The operation neither reads nor writes the uplink port. -/
def UplinkFree (f : State → State) : Prop := ∀ (u : Uplink) (s : State), f (withUplink u s) = withUplink u (f s)

namespace UplinkFree

variable {f g : State → State}

theorem id : UplinkFree fun s => s := fun _ _ => rfl

theorem comp (hg : UplinkFree g) (hf : UplinkFree f) : UplinkFree fun s => g (f s) := fun u s => (congrArg g (hf u s)).trans (hg u (f s))

theorem foldl {α : Type} {step : State → α → State} (as : List α) (h : ∀ a, UplinkFree fun s => step s a) :
    UplinkFree fun s => as.foldl step s := by
  induction as with
  | nil => exact id
  | cons a as ih => exact ih.comp (h a)

/-- A fold over a list that the state gives without its uplink. -/
theorem foldlOf {α : Type} {step : State → α → State} {as : State → List α} (same : ∀ u s, as (withUplink u s) = as s)
    (h : ∀ a, UplinkFree fun s => step s a) : UplinkFree fun s => (as s).foldl step s := fun u s => by
  simp only [same]
  exact foldl (as s) h u s

theorem ite {c : State → Prop} [d : ∀ s, Decidable (c s)] (same : ∀ u s, c (withUplink u s) = c s)
    (hf : UplinkFree f) (hg : UplinkFree g) : UplinkFree fun s => if c s then f s else g s := fun u s => by
  by_cases h : c s
  · simp only [same, if_pos h, hf u s]
  · simp only [same, if_neg h, hg u s]

/-- An operation that is one of `f` for each state, chosen without the uplink. -/
theorem of {α : Type} {f : α → State → State} (o : State → α) (same : ∀ u s, o (withUplink u s) = o s)
    (hf : ∀ a, UplinkFree (f a)) : UplinkFree fun s => f (o s) s := fun u s => by simp only [same]; exact hf (o s) u s

end UplinkFree

/-! ### Reports, slots and requests -/

theorem report_uplinkFree (i : Items) : UplinkFree (report i) := by
  intro u s
  rw [report_of_same i (s := s) (t := withUplink u s) rfl rfl rfl, report_state i s]
  rfl

theorem setSlot_uplinkFree (l : LaneNo) (x : Slot) : UplinkFree (setSlot l x) :=
  UplinkFree.ite (fun _ _ => rfl) (fun _ _ => rfl) (fun _ _ => rfl)

theorem raiseRequest_uplinkFree (k : CraneNo) (m : MoveNo) : UplinkFree (raiseRequest k m) := by
  refine UplinkFree.ite (fun _ _ => rfl) .id fun u s => ?_
  have same : (lanes.find? fun l => (withUplink u s).lanes[l].use.sharedBy k &&
      (withUplink u s).lanes[l].owner.any fun j => decide (j ≠ k)) =
    lanes.find? fun l => s.lanes[l].use.sharedBy k && s.lanes[l].owner.any fun j => decide (j ≠ k) := rfl
  rw [same]
  cases lanes.find? fun l => s.lanes[l].use.sharedBy k && s.lanes[l].owner.any fun j => decide (j ≠ k) with
  | none => rfl
  | some l => rfl

theorem reserve_uplinkFree (k : CraneNo) (m : MoveNo) (l : LaneNo) : UplinkFree (reserve k m l) := fun u s => by
  unfold reserve
  rw [setSlot_uplinkFree l (.reserved m) u s]
  rfl

theorem releaseSlot_uplinkFree (c : ReleaseCause) (l : LaneNo) : UplinkFree fun s => releaseSlot c s l := by
  refine .of (f := fun (x : Slot) s => match x with
    | .free _ => s
    | .worked => s
    | .reserved m => clearHold m (setSlot l (.free false) s)
    | .called m => report (.truckCancel l m false c) (clearHold m (setSlot l (.free false) s))
    | .arrived m => report (.truckCancel l m true c) (clearHold m (setSlot l .worked s)))
    (fun s => (s.lanes[l]).slot) (fun _ _ => rfl) fun x => ?_
  have cleared (m : MoveNo) (x : Slot) : UplinkFree fun s => clearHold m (setSlot l x s) :=
    .comp (fun _ _ => rfl) (setSlot_uplinkFree l x)
  cases x with
  | free => exact .id
  | worked => exact .id
  | reserved m => exact cleared m _
  | called m => exact (report_uplinkFree _).comp (cleared m _)
  | arrived m => exact (report_uplinkFree _).comp (cleared m _)

theorem releaseSlots_uplinkFree (c : ReleaseCause) (p : CraneNo → MoveRecord → Bool) : UplinkFree (releaseSlots c p) := by
  refine UplinkFree.foldl lanes fun l u s => ?_
  have same : (withUplink u s).lanes[l].slot.move.bind (findMove (withUplink u s)) =
    s.lanes[l].slot.move.bind (findMove s) := rfl
  beta_reduce
  rw [same]
  cases s.lanes[l].slot.move.bind (findMove s) with
  | none => rfl
  | some y => exact UplinkFree.ite (c := fun _ => p y.1 y.2 = true) (fun _ _ => rfl) (releaseSlot_uplinkFree c l) .id u s

theorem dropStaleRequest_uplinkFree (k : CraneNo) : UplinkFree (dropStaleRequest k) := fun _ _ => rfl

/-! ### The lashing table and the gang dispatcher -/

theorem setDeck_uplinkFree (a : AreaNo) (d : Deck) (c : AreaCause) : UplinkFree (setDeck a d c) := fun u s => by
  have told := report_uplinkFree (.area a (s.areas[a]).deck d c) u (modArea a (fun x => { x with deck := d }) s)
  exact congrArg (fun t => reevaluate (fun r => decide (a ∈ deckAreas t r)) t) told

theorem setGangPresent_uplinkFree (a : AreaNo) (g : Option GangNo) : UplinkFree (setGangPresent a g) := fun _ _ => rfl

theorem giveJob_uplinkFree (g : GangNo) (j : Job) : UplinkFree (giveJob g j) :=
  (report_uplinkFree _).comp ((setGangPresent_uplinkFree j.area (some g)).comp fun u s =>
    setDeck_uplinkFree j.area j.kind.underWay .dispatched u (modGang g (fun x => { x with state := .sent j, mark := .job })
      (setJobs (s.jobs.filter fun x => decide (x.area ≠ j.area)) s)))

theorem serveGang_uplinkFree (g : GangNo) : UplinkFree fun s => serveGang s g := by
  refine UplinkFree.ite (fun _ _ => rfl) (fun u s => ?_) .id
  have same : (serviceOrder (withUplink u s).jobs).find? (dispatchable (withUplink u s)) =
    (serviceOrder s.jobs).find? (dispatchable s) := rfl
  rw [same]
  cases (serviceOrder s.jobs).find? (dispatchable s) with
  | none => rfl
  | some j => exact giveJob_uplinkFree g j u s

theorem dispatchPass_uplinkFree : UplinkFree dispatchPass :=
  .ite (fun _ _ => rfl) (.foldl gangs serveGang_uplinkFree) .id

theorem queueJob_uplinkFree (a : AreaNo) (k : JobKind) (c : AreaCause) : UplinkFree (queueJob a k c) := fun u s => by
  unfold queueJob
  rw [show setJobs ((withUplink u s).jobs ++ [⟨a, k⟩]) (withUplink u s) =
    withUplink u (setJobs (s.jobs ++ [⟨a, k⟩]) s) from rfl, setDeck_uplinkFree]

theorem createJob_uplinkFree (a : AreaNo) (k : JobKind) (c : AreaCause) : UplinkFree (createJob a k c) :=
  dispatchPass_uplinkFree.comp (queueJob_uplinkFree a k c)

theorem withdrawJob_uplinkFree (a : AreaNo) (d : Deck) (c : AreaCause) : UplinkFree (withdrawJob a d c) :=
  fun u s => setDeck_uplinkFree a d c u (setJobs (s.jobs.filter fun x => decide (x.area ≠ a)) s)

theorem unlashTest_uplinkFree (a : AreaNo) : UplinkFree fun s => unlashTest s a :=
  .ite (fun _ _ => rfl) (createJob_uplinkFree a _ _) .id

theorem lashTest_uplinkFree (a : AreaNo) : UplinkFree fun s => lashTest s a :=
  .ite (fun _ _ => rfl) (createJob_uplinkFree a _ _) .id

theorem unlashWithdrawTest_uplinkFree (a : AreaNo) : UplinkFree fun s => unlashWithdrawTest s a :=
  .ite (fun _ _ => rfl) (withdrawJob_uplinkFree a _ _) .id

theorem queueChanged_uplinkFree (k : CraneNo) : UplinkFree (queueChanged k) :=
  .foldlOf (as := fun s => (leading s k).flatMap (deckAreas s)) (fun _ _ => rfl) unlashTest_uplinkFree

theorem deckPointsLost_uplinkFree (as : List AreaNo) : UplinkFree (deckPointsLost as) :=
  .foldl as fun a => (lashTest_uplinkFree a).comp (unlashWithdrawTest_uplinkFree a)

theorem deckPointsGained_uplinkFree (as : List AreaNo) : UplinkFree (deckPointsGained as) :=
  .foldl as fun a => .ite (fun _ _ => rfl) (withdrawJob_uplinkFree a _ _) .id

theorem leadTests_uplinkFree : UplinkFree leadTests :=
  .foldlOf (as := fun s => cranes.flatMap fun k => (leading s k).flatMap (deckAreas s)) (fun _ _ => rfl)
    unlashTest_uplinkFree

/-! ### The release unit -/

theorem testAgreement_uplinkFree (k : CraneNo) : UplinkFree (testAgreement k) := fun _ _ => rfl

theorem searchMoves_uplinkFree (k : CraneNo) (rs : List MoveRecord) (u : Uplink) (s : State) :
    searchMoves k rs (withUplink u s) = (withUplink u (searchMoves k rs s).1, (searchMoves k rs s).2) := by
  induction rs generalizing s with
  | nil => rfl
  | cons r rs ih =>
    unfold searchMoves
    split
    · exact ih s
    · split
      · by_cases passes : clearance s k r = true
        · rw [if_pos passes, if_pos (show clearance (withUplink u s) k r = true from passes)]
        · rw [if_neg passes, if_neg (show ¬clearance (withUplink u s) k r = true from passes)]
          exact ih s
      · have same : laneFound (withUplink u s) k = laneFound s k := rfl
        rw [same]
        cases laneFound s k with
        | none =>
          simp only [raiseRequest_uplinkFree k r.number u s]
          exact ih _
        | some l =>
          by_cases passes : clearance s k r = true
          · simp only [if_pos passes, if_pos (show clearance (withUplink u s) k r = true from passes)]
          · simp only [if_neg passes, if_neg (show ¬clearance (withUplink u s) k r = true from passes)]
            exact ih s

theorem reserveFound_uplinkFree (k : CraneNo) (c : Candidate) : UplinkFree (reserveFound k c) := by
  unfold reserveFound
  cases c.lane with
  | none => exact .id
  | some l => exact reserve_uplinkFree k c.number l

theorem releaseMove_uplinkFree (k : CraneNo) (c : Candidate) : UplinkFree (releaseMove k c) := fun u s => by
  unfold releaseMove
  rw [reserveFound_uplinkFree k c u s]
  have same : findIn (withUplink u (reserveFound k c s)) k c.number = findIn (reserveFound k c s) k c.number := rfl
  simp only [same]
  cases findIn (reserveFound k c s) k c.number with
  | none => rfl
  | some r =>
    refine ((queueChanged_uplinkFree k).comp ((testAgreement_uplinkFree k).comp
      (f := fun t => if t.cranes[k].active.isNone then toActive k r t else toStaged k r t) ?_)) u _
    exact .ite (fun _ _ => rfl) (fun _ _ => rfl) fun _ _ => rfl

theorem searchAndRelease_uplinkFree (k : CraneNo) : UplinkFree (searchAndRelease k) := fun u s => by
  unfold searchAndRelease
  rw [show window (withUplink u s) k = window s k from rfl, searchMoves_uplinkFree]
  obtain ⟨t, found⟩ := searchMoves k (window s k) s
  cases found with
  | none => rfl
  | some c => exact releaseMove_uplinkFree k c u t

theorem releaseWork_uplinkFree (k : CraneNo) : UplinkFree (releaseWork k) := by
  refine UplinkFree.ite (fun _ _ => rfl) (fun u s => ?_) .id
  rw [searchAndRelease_uplinkFree]
  by_cases again : s.cranes[k].active.isNone ∧ (searchAndRelease k s).cranes[k].active.isSome
  · exact (if_pos again).trans ((searchAndRelease_uplinkFree k u _).trans (congrArg _ (if_pos again).symm))
  · exact (if_neg again).trans (congrArg _ (if_neg again).symm)

theorem evaluateOnce_uplinkFree (k : CraneNo) : UplinkFree (evaluateOnce k) :=
  (releaseWork_uplinkFree k).comp (dropStaleRequest_uplinkFree k)

theorem issueCall_uplinkFree (r : MoveRecord) (l : LaneNo) (ahead : Nat) : UplinkFree (issueCall r l ahead) :=
  (report_uplinkFree _).comp (UplinkFree.comp (g := modMove r.number fun x => { x with called := true })
    (fun _ _ => rfl) (setSlot_uplinkFree l (.called r.number)))

theorem checkReserve_uplinkFree (k : CraneNo) (n : MoveNo) : UplinkFree (checkReserve k n) := fun u s => by
  unfold checkReserve
  rw [show findIn (withUplink u s) k n = findIn s k n from rfl]
  cases findIn s k n with
  | none => rfl
  | some r =>
    simp only
    split
    · rw [show laneFound (withUplink u s) k = laneFound s k from rfl]
      cases laneFound s k with
      | none => exact raiseRequest_uplinkFree k n u s
      | some l => exact reserve_uplinkFree k n l u s
    · rfl

theorem checkCall_uplinkFree (k : CraneNo) (n : MoveNo) (ahead : Nat) : UplinkFree (checkCall k n ahead) := fun u s => by
  unfold checkCall
  rw [show findIn (withUplink u s) k n = findIn s k n from rfl]
  cases findIn s k n with
  | none => rfl
  | some r =>
    simp only
    cases r.lane with
    | none => rfl
    | some l =>
      exact UplinkFree.ite (c := fun s => (laneNeed r ∧ s.lanes[l].slot = .reserved n ∧
        ahead ≤ s.lanes[l].travel + par s Config.CALL_MARGIN)) (fun _ _ => rfl) (issueCall_uplinkFree r l ahead) .id u s

theorem aheadTimes_withUplink (u : Uplink) (s : State) (k : CraneNo) (a : Nat) (rs : List MoveRecord) :
    aheadTimes (withUplink u s) k a rs = aheadTimes s k a rs := by
  induction rs generalizing a with
  | nil => rfl
  | cons r rs ih =>
    unfold aheadTimes
    rw [ih, ih]
    rfl

theorem checkMoves_uplinkFree (k : CraneNo) : UplinkFree (checkMoves k) := fun u s => by
  rw [checkMoves_eq, checkMoves_eq, show withoutStale k (withUplink u s) = withUplink u (withoutStale k s) from rfl,
    aheadTimes_withUplink]
  exact UplinkFree.foldl (step := fun s (m : MoveNo × Nat) => checkCall k m.1 m.2 (checkReserve k m.1 s))
    (aheadTimes s k (remainder s k) (horizonOf s k))
    (fun m => (checkCall_uplinkFree k m.1 m.2).comp (checkReserve_uplinkFree k m.1)) u (withoutStale k s)

theorem checkAfterActivation_uplinkFree (k : CraneNo) : UplinkFree (checkAfterActivation k) := by
  refine UplinkFree.ite (fun _ _ => rfl) (fun u s => ?_) .id
  rw [checkMoves_uplinkFree k u s]
  by_cases reserved : reservedBetween s (checkMoves k s) k = true
  · exact (if_pos reserved).trans ((evaluateOnce_uplinkFree k u _).trans (congrArg _ (if_pos reserved).symm))
  · exact (if_neg reserved).trans (congrArg _ (if_neg reserved).symm)

theorem evaluate_uplinkFree (k : CraneNo) : UplinkFree (evaluate k) := fun u s => by
  unfold evaluate
  rw [evaluateOnce_uplinkFree k u s]
  by_cases activated : s.cranes[k].active.isNone ∧ (evaluateOnce k s).cranes[k].active.isSome
  · exact (if_pos activated).trans ((checkAfterActivation_uplinkFree k u _).trans (congrArg _ (if_pos activated).symm))
  · exact (if_neg activated).trans (congrArg _ (if_neg activated).symm)

theorem evaluateMany_uplinkFree (ks : List CraneNo) : UplinkFree (evaluateMany ks) := by
  match ks with
  | [] => exact .id
  | [k] => exact evaluate_uplinkFree k
  | j :: k :: ks =>
    exact fun u s => UplinkFree.foldl (step := fun s k => evaluate k s) (openOrder s (j :: k :: ks))
      evaluate_uplinkFree u (useFree s)

theorem tellRelease_uplinkFree (u : Uplink) (s t : State) :
    tellRelease (withUplink u s) (withUplink u t) = withUplink u (tellRelease s t) :=
  evaluateMany_uplinkFree (newlyReady s t) u t

end Sys2Proof.Machine


/-! PROOFS. The berth hold unit, the orders and the directives neither read nor write the uplink port. -/

namespace Sys2Proof.Machine

/-! ### The berth hold unit -/

theorem testBerth_uplinkFree (who : Option CraneNo) : UplinkFree (testBerth who) := fun u s => by
  unfold testBerth
  rw [show (withUplink u s).berth = s.berth from rfl, show holdState (withUplink u s) = holdState s from rfl]
  cases s.berth.state with
  | running => rfl
  | holding =>
    cases holdState s with
    | held => exact report_uplinkFree (.berth (.toHeld s.berth.causes)) u (modBerth (fun b => { b with state := .held }) s)
    | running => rfl
    | holding => rfl
  | held =>
    cases holdState s with
    | holding =>
      exact report_uplinkFree (.berth (.toHolding s.berth.causes who)) u (modBerth (fun b => { b with state := .holding }) s)
    | running => rfl
    | held => rfl

theorem takeBack_uplinkFree (k : CraneNo) : UplinkFree (takeBack k) := fun u s => by
  unfold takeBack
  rw [show (withUplink u s).cranes = s.cranes from rfl]
  cases s.cranes[k].staged with
  | none => rfl
  | some n => rfl

theorem markOverlap_uplinkFree (k : CraneNo) : UplinkFree (markOverlap k) := fun u s => by
  unfold markOverlap
  rw [show (withUplink u s).cranes = s.cranes from rfl]
  cases s.cranes[k].active with
  | none => rfl
  | some n => rfl

theorem withdrawRequests_uplinkFree (p : Request → Bool) : UplinkFree (withdrawRequests p) := fun _ _ => rfl

theorem stopWork_uplinkFree : UplinkFree stopWork := fun u s =>
  UplinkFree.comp (UplinkFree.foldl (step := fun s k => testAgreement k s)
      (cranes.filter fun k => s.cranes[k].staged.isSome) testAgreement_uplinkFree)
    ((UplinkFree.foldl cranes markOverlap_uplinkFree).comp ((releaseSlots_uplinkFree .berthHold _).comp
      ((UplinkFree.foldl cranes takeBack_uplinkFree).comp (withdrawRequests_uplinkFree fun _ => true)))) u s

theorem enterHold_uplinkFree (c : BerthCause) : UplinkFree (enterHold c) := fun u s => by
  unfold enterHold
  rw [stopWork_uplinkFree]
  exact report_uplinkFree (.berth (.entered (holdState (stopWork s)) c ((stopWork s).berth.causes.add c))) u
    (modBerth (fun b => { b with causes := b.causes.add c, state := holdState (stopWork s) }) (stopWork s))

theorem addCause_uplinkFree (c : BerthCause) : UplinkFree (addCause c) :=
  .ite (fun _ _ => rfl) .id (.ite (fun _ _ => rfl) (enterHold_uplinkFree c) fun u s =>
    report_uplinkFree (.berth (.causeAdded s.berth.state c (s.berth.causes.add c))) u
      (modBerth (fun b => { b with causes := b.causes.add c }) s))

theorem releaseHold_uplinkFree : UplinkFree releaseHold := fun u s =>
  (dispatchPass_uplinkFree.comp ((evaluateMany_uplinkFree cranes).comp
    (report_uplinkFree (.berth (.released s.berth.state s.berth.causes))))) u
    (modBerth (fun b => { b with state := .running, causes := ⟨false, false, false⟩ }) s)

/-! ### Orders -/

/-- A record taken out of its queue and named by no other record and no request, before the lashing table is told. -/
def removed (k : CraneNo) (r : MoveRecord) (s : State) : State :=
  withdrawRequests (fun q => decide (q.move = r.number))
    (clearAfterMove r.number (setQueue k (without r.number s.queues[k]) s))

theorem freeRecord_eq (k : CraneNo) (r : MoveRecord) (s : State) :
    freeRecord k r s = queueChanged k (deckPointsLost (deckAreas s r) (removed k r s)) := rfl

theorem removed_uplinkFree (k : CraneNo) (r : MoveRecord) : UplinkFree (removed k r) := fun _ _ => rfl

theorem freeRecord_uplinkFree (k : CraneNo) (r : MoveRecord) : UplinkFree (freeRecord k r) := fun u s => by
  rw [freeRecord_eq, freeRecord_eq, removed_uplinkFree, deckPointsLost_uplinkFree, queueChanged_uplinkFree,
    show deckAreas (withUplink u s) r = deckAreas s r from rfl]

theorem voidRecord_uplinkFree (k : CraneNo) (r : MoveRecord) (c : MoveCause) : UplinkFree (voidRecord k r c) := by
  have emptied : UplinkFree fun s => if r.state = .staged then modCrane k (fun x => { x with staged := none }) s else s :=
    .ite (c := fun _ => r.state = .staged) (fun _ _ => rfl) (fun _ _ => rfl) .id
  have freed : UplinkFree fun s => report (.moveState r.number k c) (freeRecord k r s) :=
    (report_uplinkFree _).comp (freeRecord_uplinkFree k r)
  unfold voidRecord
  cases r.lane with
  | none => exact freed.comp emptied
  | some l => exact freed.comp ((releaseSlot_uplinkFree .voided l).comp emptied)

theorem voidAndFollow_uplinkFree (k : CraneNo) (r : MoveRecord) (c : MoveCause) : UplinkFree (voidAndFollow k r c) := by
  intro u s
  unfold voidAndFollow
  rw [voidRecord_uplinkFree, show dependentsMadeReady r.number (withUplink u s) = dependentsMadeReady r.number s from rfl]
  by_cases staged : r.state = .staged
  · rw [if_pos staged, if_pos staged]
    exact (dispatchPass_uplinkFree.comp ((evaluateMany_uplinkFree _).comp (testAgreement_uplinkFree k))) u _
  · rw [if_neg staged, if_neg staged]
    exact evaluateMany_uplinkFree _ u _

/-! ### Directives -/

theorem accepted_uplinkFree (k : CraneNo) (d : PendingDirective) (way : Acceptance) : UplinkFree (accepted k d way) :=
  (report_uplinkFree _).comp (f := modCrane k fun c => { c with directive := none }) fun _ _ => rfl

theorem withdrawCrane_uplinkFree (k : CraneNo) : UplinkFree (withdrawCrane k) :=
  (withdrawRequests_uplinkFree _).comp ((releaseSlots_uplinkFree _ _).comp ((testBerth_uplinkFree _).comp
    (f := modCrane k fun c => { c with mode := .withdrawn }) fun _ _ => rfl))

theorem testAcceptance_uplinkFree (k : CraneNo) : UplinkFree (testAcceptance k) := fun u s => by
  unfold testAcceptance
  rw [show (withUplink u s).cranes = s.cranes from rfl]
  cases s.cranes[k].directive with
  | none => rfl
  | some d =>
    refine UplinkFree.ite (c := fun s => s.cranes[k].active.isSome = true) (fun _ _ => rfl) .id
      ((accepted_uplinkFree k d .normal).comp (f := fun s => if d.kind = .withdraw then withdrawCrane k s else s) ?_) u s
    exact .ite (c := fun _ => d.kind = .withdraw) (fun _ _ => rfl) (withdrawCrane_uplinkFree k) .id

theorem abandon_uplinkFree (k : CraneNo) (n : MoveNo) : UplinkFree (abandon k n) := fun u s => by
  have moved : UplinkFree fun s2 => report (.moveState n k .abandoned) (testBerth (some k)
      (withdrawRequests (fun q => decide (q.move = n)) (modMove n (abandonedRecord s2) s2))) :=
    (report_uplinkFree _).comp ((testBerth_uplinkFree _).comp fun _ _ => rfl)
  unfold abandon
  rw [show modCrane k (fun c => { c with active := none }) (withUplink u s) =
    withUplink u (modCrane k (fun c => { c with active := none }) s) from rfl]
  simp only [show findIn (withUplink u (modCrane k (fun c => { c with active := none }) s)) k n =
    findIn (modCrane k (fun c => { c with active := none }) s) k n from rfl]
  cases (findIn (modCrane k (fun c => { c with active := none }) s) k n).bind (·.lane) with
  | none => exact moved u _
  | some l => exact (moved.comp (releaseSlot_uplinkFree .withdrawn l)) u _

theorem acceptBySilence_uplinkFree (k : CraneNo) (d : PendingDirective) : UplinkFree (acceptBySilence k d) := fun u s => by
  have followed : UplinkFree fun s1 => accepted k d (.silence s.cranes[k].active) (dispatchPass
      (evaluateMany (cranes.filter fun j => decide (j ≠ k)) (testAgreement k (withdrawCrane k s1)))) :=
    (accepted_uplinkFree k d _).comp (dispatchPass_uplinkFree.comp ((evaluateMany_uplinkFree _).comp
      ((testAgreement_uplinkFree k).comp (withdrawCrane_uplinkFree k))))
  unfold acceptBySilence
  simp only [show (withUplink u s).cranes = s.cranes from rfl]
  cases active : s.cranes[k].active with
  | none => rw [active] at followed; exact followed u s
  | some n => rw [active] at followed; exact (followed.comp (abandon_uplinkFree k n)) u s

theorem takeBackAndFollow_uplinkFree (k : CraneNo) : UplinkFree (takeBackAndFollow k) :=
  .ite (fun _ _ => rfl) (dispatchPass_uplinkFree.comp ((testAgreement_uplinkFree k).comp (takeBack_uplinkFree k))) .id

end Sys2Proof.Machine


/-! PROOFS. Management telegrams that act on the berth, the lanes, the bays and the areas. -/

namespace Sys2Proof.Machine

variable {s : State} {t : Telegram}

/-! ### Telegrams that are carried out -/

theorem popInbound_withUplink (s : State) : popInbound s = withUplink (takenUplink s.uplink) s := popInbound_eq s

theorem uplinkFree_kept {f : State → State} (free : UplinkFree f) (s : State) :
    (f (popInbound s)).uplink = takenUplink s.uplink := by
  rw [popInbound_withUplink, free]
  rfl

/-- A management telegram that is accepted leaves what its act makes of the state, but for the uplink. -/
theorem management_done {kind : Byte} {act : List Byte → State → Answer} {f : State → State} (h : ToPart s t kind)
    (known : 0x20 ≤ kind.toNat ∧ kind.toNat ≤ 0x2D) (free : UplinkFree f)
    (done : act t.body (popInbound s) = accept (f (popInbound s))) :
    awake (takeHead (managementFor kind act)) s = withUplink (answeredUplink s.uplink t .accepted [] none) (f s) := by
  rw [management_answered h known done (uplinkFree_kept free s)]
  have same : (accept (f (popInbound s))).state = withUplink (takenUplink s.uplink) (f s) := by
    rw [popInbound_withUplink]
    exact free _ s
  rw [same]
  rfl

/-! ### Evaluations where nothing may be released -/

theorem evaluate_foldl_of_closed (ks : List CraneNo) : ∀ s : State, (∀ k, releaseCondition s k = false) →
    ∃ v, ks.foldl (fun s k => evaluate k s) s = { s with lanes := v } := by
  induction ks with
  | nil => exact fun s _ => ⟨s.lanes, rfl⟩
  | cons k ks ih =>
    intro s closed
    rw [List.foldl_cons, evaluate_of_closed (closed k)]
    obtain ⟨v, eq⟩ := ih (withoutStale k s) closed
    exact ⟨v, eq⟩

/-- Where no crane may be released to, evaluations withdraw stale requests alone. -/
theorem evaluateMany_of_closed (ks : List CraneNo) (closed : ∀ k, releaseCondition s k = false) :
    ∃ v n, evaluateMany ks s = { s with lanes := v, freeCount := n } := by
  unfold evaluateMany
  split
  · exact ⟨s.lanes, s.freeCount, rfl⟩
  · next k => exact ⟨(withoutStale k s).lanes, s.freeCount, evaluate_of_closed (closed k)⟩
  · obtain ⟨v, eq⟩ := evaluate_foldl_of_closed (openOrder s _) (useFree s) closed
    exact ⟨v, s.freeCount + 1, eq⟩

/-! ### Dispatch passes that give no job -/

theorem serveGang_of_no_jobs (g : GangNo) (empty : s.jobs = []) : serveGang s g = s := by
  unfold serveGang
  simp [empty, serviceOrder]

theorem dispatchPass_of_no_jobs (empty : s.jobs = []) : dispatchPass s = s := by
  unfold dispatchPass
  split
  · exact List.foldl_fixed' (fun g => serveGang_of_no_jobs g empty) gangs
  · rfl

theorem dispatchPass_of_held (held : s.berth.state ≠ .running) : dispatchPass s = s := if_neg held

theorem WorkFrame.withUplink {s t : State} (h : WorkFrame s t) (u : Uplink) : WorkFrame s (withUplink u t) :=
  ⟨h.pending, h.resetAsserted, h.clock, h.params, h.cycles, h.roster, h.bays, h.berth, h.stations, h.field, h.cranes,
    h.moves, h.lanes, h.gangs, h.flags⟩

theorem releaseCondition_report (i : Items) (s : State) (k : CraneNo) :
    releaseCondition (report i s) k = releaseCondition s k :=
  releaseCondition_congr k (report_cranes s i) (report_stations s i) (report_berth s i)

/-- Evaluations and a dispatch pass report nothing where nothing may be released and no job is queued. -/
theorem reports_of_closed (ks : List CraneNo) (closed : ∀ k, releaseCondition s k = false) (empty : s.jobs = []) :
    (dispatchPass (evaluateMany ks s)).reports = s.reports := by
  obtain ⟨v, n, eq⟩ := evaluateMany_of_closed ks closed
  rw [eq, dispatchPass_of_no_jobs]
  exact empty

/-! ### RELEASE_BERTH -/

theorem calm_eq_false_iff (s : State) : calm s = false ↔
    ∃ c, s.berth.calmStart = some c ∧ age s.clock c < par s Config.CALM_INTERVAL := by
  unfold calm
  cases s.berth.calmStart with
  | none => simp
  | some c => simp

theorem calm_iff (s : State) : calm s = true ↔
    ∀ c, s.berth.calmStart = some c → par s Config.CALM_INTERVAL ≤ age s.clock c := by
  unfold calm
  cases s.berth.calmStart with
  | none => simp
  | some c => simp

/-- Settles O11: the tests of R138 in their order, and the release through `releaseHold`. -/
theorem releaseBerthTested : Obligations.ReleaseBerthTested := by
  intro s t h
  refine ⟨fun body => ?_, fun body running => ?_, fun body held opened => ?_, fun body held closed windy => ?_,
    fun body held closed calmed => ⟨?_, ?_, fun shut empty => ?_⟩⟩
  · exact congrArg Host.Outcome.next (management_refused h (by decide) (withEmptyBody_refused body _))
  · refine congrArg Host.Outcome.next (management_done h (by decide) UplinkFree.id ?_)
    exact (withEmptyBody_taken body _).trans (if_pos running)
  · refine congrArg Host.Outcome.next (management_refused h (by decide) ((withEmptyBody_taken body _).trans ?_))
    exact (if_neg held).trans (if_pos (congrArg Bool.not opened))
  · refine congrArg Host.Outcome.next (management_refused h (by decide) ((withEmptyBody_taken body _).trans ?_))
    refine (if_neg held).trans ((if_neg ?_).trans (if_pos (congrArg Bool.not ((calm_eq_false_iff s).2 windy))))
    simp [popInbound_eq, closed]
  · refine congrArg Host.Outcome.next (management_done h (by decide) releaseHold_uplinkFree ?_)
    refine (withEmptyBody_taken body _).trans ((if_neg held).trans ((if_neg ?_).trans (if_neg ?_)))
    · simp [popInbound_eq, closed]
    · rw [show calm (popInbound s) = calm s from rfl, (calm_iff s).2 calmed]
      decide
  · exact (QReach.workFrame
      ((report_quiet _ _).trans ((evaluateMany_quiet ..).trans (dispatchPass_quiet _)))).withUplink _
  · exact reports_of_closed cranes (fun k => (releaseCondition_report _ _ k).trans (shut k))
      ((report_jobs _ _).trans empty)

end Sys2Proof.Machine


/-! PROOFS. The LOAD telegrams: the rows of a body, the tests and the writing of a whole telegram. -/

namespace Sys2Proof.Machine

variable {s : State} {t : Telegram}

/-! ### Rows of a body (R171) -/

theorem rowsOf_of_ragged {n : Nat} {body : List Byte} (h : body = [] ∨ body.length % (n + 1) ≠ 0) : rowsOf n body = none :=
  if_neg fun ⟨full, whole⟩ => h.elim full fun ragged => ragged whole

theorem rowsOf_of_whole {n : Nat} {body : List Byte} (full : body ≠ []) (whole : body.length % (n + 1) = 0) :
    rowsOf n body =
      some ((List.range (body.length / (n + 1))).map fun i => (body.drop (i * (n + 1))).take (n + 1)) :=
  if_pos ⟨full, whole⟩

theorem length_flatten_rows {n : Nat} {rows : List (List Byte)} (len : ∀ r ∈ rows, r.length = n) :
    rows.flatten.length = rows.length * n := by
  induction rows with
  | nil => simp
  | cons r rows ih =>
    rw [List.flatten_cons, List.length_append, len r (by simp), ih fun x hx => len x (by simp [hx]), List.length_cons,
      Nat.succ_mul, Nat.add_comm]

theorem slices_flatten {n : Nat} {rows : List (List Byte)} (len : ∀ r ∈ rows, r.length = n) :
    (List.range rows.length).map (fun i => (rows.flatten.drop (i * n)).take n) = rows := by
  induction rows with
  | nil => simp
  | cons r rows ih =>
    have first : r.length = n := len r (by simp)
    rw [List.length_cons, List.range_succ_eq_map, List.map_cons, List.map_map]
    congr 1
    · simp [← first]
    · refine Eq.trans (List.map_congr_left fun i _ => ?_) (ih fun x hx => len x (by simp [hx]))
      simp only [Function.comp, List.flatten_cons, Nat.succ_eq_add_one]
      rw [Nat.succ_mul, Nat.add_comm, ← first, List.drop_length_add_append]

theorem rowsOf_flatten {n : Nat} {rows : List (List Byte)} (filled : rows ≠ []) (len : ∀ r ∈ rows, r.length = n + 1) :
    rowsOf n rows.flatten = some rows := by
  have length := length_flatten_rows len
  have full : rows.flatten ≠ [] := fun empty => by
    rw [empty] at length
    simp at length
    exact filled length
  rw [rowsOf_of_whole full (by rw [length, Nat.mul_mod_left]), length, Nat.mul_div_cancel _ (Nat.succ_pos n),
    slices_flatten len]

/-! ### A LOAD of rows (R175) -/

/-- The tests of one row and the writing of one row, of a table written by rows. -/
abbrev RowTest := State → List (List Byte) → List Byte → Option Result

/-- The answer to a LOAD of rows of `n + 1` bytes, with what follows the writing of the last. -/
def loadThen (n : Nat) (test : RowTest) (write : List Byte → State → State) (after : State → State → State)
    (body : List Byte) (s : State) : Answer :=
  { load n test write body s with state := after s (load n test write body s).state }

theorem load_of_ragged {n : Nat} {test : RowTest} {write : List Byte → State → State} {body : List Byte}
    (ragged : body = [] ∨ body.length % (n + 1) ≠ 0) (s : State) : load n test write body s = refuse .range s := by
  unfold load
  rw [rowsOf_of_ragged ragged]

section
variable {n : Nat} {test : RowTest} {write : List Byte → State → State} {body : List Byte} {rows : List (List Byte)}

theorem load_of_repeated (cut : rowsOf n body = some rows) (twice : ¬(rows.map fun r => cell r 0).Nodup) (s : State) :
    load n test write body s = refuse .range s := by
  unfold load
  rw [cut]
  exact if_pos twice

theorem load_of_failing {x : Result} (cut : rowsOf n body = some rows) (once : (rows.map fun r => cell r 0).Nodup)
    (fails : rows.findSome? (test s rows) = some x) : load n test write body s = refuse x s := by
  unfold load
  rw [cut]
  simp only [once, not_true_eq_false, if_false, fails]

theorem load_of_passing (cut : rowsOf n body = some rows) (once : (rows.map fun r => cell r 0).Nodup)
    (passes : rows.findSome? (test s rows) = none) :
    load n test write body s = accept (rows.foldl (fun s r => write r s) s) := by
  unfold load
  rw [cut]
  simp only [once, not_true_eq_false, if_false, passes]

end

/-- Command `c` takes a LOAD telegram of this kind, of rows of `n + 1` bytes, and none of it has to do with the uplink. -/
structure LoadCommand (c : Instr) (kind : Byte) (n : Nat) (test : RowTest) (write : List Byte → State → State)
    (after : State → State → State) : Prop where
  exec_eq : ∀ s, exec c s = .next (awake (takeHead (managementFor kind (loadThen n test write after))) s)
  known : 0x20 ≤ kind.toNat ∧ kind.toNat ≤ 0x2D
  after_self : ∀ s, after s s = s
  after_free : ∀ u s x, after (withUplink u s) (withUplink u x) = withUplink u (after s x)
  write_free : ∀ r, UplinkFree (write r)
  test_free : ∀ u s, test (withUplink u s) = test s
  test_refuses : ∀ s rows r, test s rows r ≠ some .accepted

namespace LoadCommand

variable {c : Instr} {kind : Byte} {n : Nat} {test : RowTest} {write : List Byte → State → State}
  {after : State → State → State}

theorem refused (L : LoadCommand c kind n test write after) (h : ToPart s t kind) {x : Result}
    (refuses : load n test write t.body (popInbound s) = refuse x (popInbound s)) :
    exec c s = .next (answeredOnly s t x) := by
  rw [L.exec_eq]
  refine congrArg Host.Outcome.next (management_refused h L.known ?_)
  unfold loadThen
  rw [refuses]
  show Answer.mk _ _ _ _ = _
  rw [show (refuse x (popInbound s)).state = popInbound s from rfl, L.after_self]
  rfl

theorem ragged (L : LoadCommand c kind n test write after) (h : ToPart s t kind)
    (ragged : t.body = [] ∨ t.body.length % (n + 1) ≠ 0) : exec c s = .next (answeredOnly s t .range) :=
  L.refused h (load_of_ragged ragged _)

theorem repeated (L : LoadCommand c kind n test write after) (h : ToPart s t kind) {rows : List (List Byte)}
    (cut : rowsOf n t.body = some rows) (twice : ¬(rows.map fun r => cell r 0).Nodup) :
    exec c s = .next (answeredOnly s t .range) :=
  L.refused h (load_of_repeated cut twice _)

theorem failing (L : LoadCommand c kind n test write after) (h : ToPart s t kind) {rows : List (List Byte)} {x : Result}
    (cut : rowsOf n t.body = some rows) (once : (rows.map fun r => cell r 0).Nodup)
    (fails : rows.findSome? (test s rows) = some x) : exec c s = .next (answeredOnly s t x) := by
  refine L.refused h (load_of_failing cut once ?_)
  rw [popInbound_withUplink, L.test_free]
  exact fails

theorem passing (L : LoadCommand c kind n test write after) (h : ToPart s t kind) {rows : List (List Byte)}
    (cut : rowsOf n t.body = some rows) (once : (rows.map fun r => cell r 0).Nodup)
    (passes : rows.findSome? (test s rows) = none) :
    exec c s = .next (withUplink (answeredUplink s.uplink t .accepted [] none)
      (after s (rows.foldl (fun s r => write r s) s))) := by
  rw [L.exec_eq]
  have done : UplinkFree fun s => after s (rows.foldl (fun s r => write r s) s) := fun u s =>
    (congrArg (after (withUplink u s)) (UplinkFree.foldl rows L.write_free u s)).trans (L.after_free u s _)
  refine congrArg Host.Outcome.next (management_done h L.known done ?_)
  unfold loadThen
  rw [load_of_passing cut once (by rw [popInbound_withUplink, L.test_free]; exact passes)]
  rfl

end LoadCommand

end Sys2Proof.Machine


/-! PROOFS. The four LOAD commands of rows, and their telegrams of one row. -/

namespace Sys2Proof.Machine

variable {s : State} {t : Telegram}

/-! ### The commands -/

theorem writeBay_uplinkFree (r : List Byte) : UplinkFree (writeBay r) := fun u s => by
  unfold writeBay
  split <;> rfl

theorem writeLane_uplinkFree (r : List Byte) : UplinkFree (writeLane r) := fun u s => by
  unfold writeLane
  split
  · split <;> rfl
  · rfl

theorem loadArea_uplinkFree (a : AreaNo) (d : Deck) (flag : Bool) : UplinkFree (loadArea a d flag) := by
  have written : UplinkFree fun s => modArea a (fun x => { x with lashRequired := flag })
      (setJobs (s.jobs.filter fun j => decide (j.area ≠ a)) s) := fun _ _ => rfl
  have set : UplinkFree fun t => if t.areas[a].deck = d then t else setDeck a d .loaded t :=
    .ite (fun _ _ => rfl) .id (setDeck_uplinkFree a d .loaded)
  have tested : UplinkFree fun t => if d = .opened ∧ flag then lashTest t a else t :=
    .ite (c := fun _ => d = .opened ∧ flag) (fun _ _ => rfl) (lashTest_uplinkFree a) .id
  exact tested.comp (set.comp written)

theorem writeArea_uplinkFree (r : List Byte) : UplinkFree (writeArea r) := fun u s => by
  unfold writeArea
  split
  · next h =>
    cases loadedDeck (cell r 1) with
    | none => rfl
    | some d => exact loadArea_uplinkFree ⟨cell r 0, h⟩ d _ u s
  · rfl

theorem discardForwards_uplinkFree (m : Byte) : UplinkFree (discardForwards m) := fun u s =>
  UplinkFree.foldl (step := fun s (_ : Telegram) => report (.line (.forwardDiscarded m)) s)
    (s.field.forward.filter fun t => decide (t.mark = m)) (fun _ => report_uplinkFree _) u
    (modField (fun f => { f with forward := f.forward.filter fun t => decide (t.mark ≠ m) }) s)

theorem endVisitTo_uplinkFree (st : Station) : UplinkFree (endVisitTo st) :=
  .ite (fun _ _ => rfl) (fun _ _ => rfl) .id

theorem removeCrane_uplinkFree (k : CraneNo) : UplinkFree (removeCrane k) := by
  refine .ite (fun _ _ => rfl) ?_ .id
  exact (discardForwards_uplinkFree _).comp ((testBerth_uplinkFree _).comp ((endVisitTo_uplinkFree _).comp
    (f := fun s => dropOwnership k (forgetStation k (modCrane k (fun _ => Crane.powerOn) (setRoster k none s))))
    fun _ _ => rfl))

theorem enterCrane_uplinkFree (k : CraneNo) (e : RosterEntry) : UplinkFree (enterCrane k e) :=
  (testBerth_uplinkFree _).comp (f := fun s => forgetStation k (setCycle k (initialCycle s.params)
    (modCrane k (fun _ => { Crane.powerOn with mode := .inService, position := some e.parking })
      (setRoster k (some e) s)))) fun _ _ => rfl

theorem writeRoster_uplinkFree (r : List Byte) : UplinkFree (writeRoster r) := fun u s => by
  unfold writeRoster
  split
  · split
    · exact removeCrane_uplinkFree _ u s
    · exact UplinkFree.ite (c := fun s => inRoster s _ = true) (fun _ _ => rfl) (fun _ _ => rfl)
        (enterCrane_uplinkFree _ _) u s
  · rfl

theorem newlyReady_self (s : State) : newlyReady s s = [] := by
  refine List.filter_eq_nil_iff.2 fun k _ => ?_
  simp only [List.any_eq_true, Bool.and_eq_true, decide_eq_true_eq, Bool.not_eq_true', not_exists, not_and]
  intro r mem ready new
  have old : ((s.queues[k]).any fun r0 => decide (r0.number = r.number) && decide (r0.state = .ready)) = true :=
    List.any_eq_true.2 ⟨r, mem, by simp [ready]⟩
  rw [old] at new
  cases new

theorem tellRelease_self (s : State) : tellRelease s s = s := by
  unfold tellRelease
  rw [newlyReady_self]
  rfl

theorem loadRoster_command :
    LoadCommand .loadRoster Config.kLoadRoster 7 rosterTest writeRoster (fun _ x => x) where
  exec_eq _ := rfl
  known := by decide
  after_self _ := rfl
  after_free _ _ _ := rfl
  write_free := writeRoster_uplinkFree
  test_free _ _ := rfl
  test_refuses s rows r := by
    unfold rosterTest
    grind

theorem loadLanes_command : LoadCommand .loadLanes Config.kLoadLanes 5 laneTest writeLane (fun _ x => x) where
  exec_eq _ := rfl
  known := by decide
  after_self _ := rfl
  after_free _ _ _ := rfl
  write_free := writeLane_uplinkFree
  test_free _ _ := rfl
  test_refuses s rows r := by
    unfold laneTest
    grind

theorem loadBays_command : LoadCommand .loadBays Config.kLoadBays 4 bayTest writeBay (fun _ x => x) where
  exec_eq _ := rfl
  known := by decide
  after_self _ := rfl
  after_free _ _ _ := rfl
  write_free := writeBay_uplinkFree
  test_free _ _ := rfl
  test_refuses s rows r := by
    unfold bayTest
    grind

theorem loadAreas_command : LoadCommand .loadAreas Config.kLoadAreas 2 areaTest writeArea tellRelease where
  exec_eq _ := rfl
  known := by decide
  after_self := tellRelease_self
  after_free := tellRelease_uplinkFree
  write_free := writeArea_uplinkFree
  test_free _ _ := rfl
  test_refuses s rows r := by
    unfold areaTest
    grind

/-! ### Telegrams of one row -/

namespace LoadCommand

variable {c : Instr} {kind : Byte} {n : Nat} {test : RowTest} {write : List Byte → State → State}
  {after : State → State → State}

theorem rowsOf_row {row : List Byte} (len : row.length = n + 1) : rowsOf n row = some [row] := by
  have cut := rowsOf_flatten (rows := [row]) (by simp) (by simpa using len)
  simpa using cut

theorem row_failing (L : LoadCommand c kind n test write after) (h : ToPart s t kind) (len : t.body.length = n + 1)
    {x : Result} (fails : test s [t.body] t.body = some x) : exec c s = .next (answeredOnly s t x) :=
  L.failing h (rowsOf_row len) (by simp) (by simp [fails])

theorem row_passing (L : LoadCommand c kind n test write after) (h : ToPart s t kind) (len : t.body.length = n + 1)
    (passes : test s [t.body] t.body = none) :
    exec c s = .next (withUplink (answeredUplink s.uplink t .accepted [] none) (after s (write t.body s))) :=
  L.passing h (rowsOf_row len) (by simp) (by simp [passes])

end LoadCommand

theorem byte_toNat (b : Byte) : byte b.toNat = b := by simp [byte]

/-! ### LOAD_LANES (R82, R83) -/

theorem useForbidden_iff (s : State) (l : LaneNo) (u : LaneUse) : useForbidden s l u = true ↔
    ∃ (k : CraneNo) (e : RosterEntry), s.roster[k] = some e ∧ l ∈ e.homeLanes ∧ u ≠ .home k := by
  unfold useForbidden
  simp only [List.any_eq_true, Bool.and_eq_true, decide_eq_true_eq, Option.any_eq_true]
  constructor
  · rintro ⟨k, _, ⟨e, entry, home⟩, other⟩
    exact ⟨k, e, entry, home, other⟩
  · rintro ⟨k, e, entry, home, other⟩
    exact ⟨k, List.mem_finRange k, ⟨e, entry, home⟩, other⟩

theorem slot_code_eq_zero_iff (x : Slot) : x.code = 0 ↔ ∃ b, x = .free b := by
  cases x <;> simp [Slot.code]

theorem toNat_eq_zero_iff (b : Byte) : b.toNat = 0 ↔ b = 0 :=
  ⟨fun zero => BitVec.eq_of_toNat_eq zero, fun zero => congrArg BitVec.toNat zero⟩

section
variable {n c t1 t0 pol settle : Byte} (rows : List (List Byte))

theorem laneTest_of_high (high : 16 ≤ n.toNat) : laneTest s rows [n, c, t1, t0, pol, settle] = some .range :=
  dif_neg (Nat.not_lt.2 high)

theorem laneTest_of_noUse (noUse : LaneUse.ofCode c = none) : laneTest s rows [n, c, t1, t0, pol, settle] = some .range := by
  have code : LaneUse.ofCode (byte (cell [n, c, t1, t0, pol, settle] 1)) = none := (congrArg _ (byte_toNat c)).trans noUse
  unfold laneTest
  split
  · rw [code]
  · rfl

/-- The tests of a lane row after those of its number and its use. -/
theorem laneTest_of_use {l : LaneNo} {use : LaneUse} (lane : n.toNat = l.val) (code : LaneUse.ofCode c = some use) :
    laneTest s rows [n, c, t1, t0, pol, settle] =
      if 3000 < of16 t1 t0 ∨ 1 < pol.toNat ∨ ¬(1 ≤ settle.toNat ∧ settle.toNat ≤ 50) ∨ useForbidden s l use then
        some .range
      else if (s.lanes[l]).slot.code ≠ 0 then some .collision
      else none := by
  obtain ⟨v, small⟩ := l
  obtain rfl : n.toNat = v := lane
  have code : LaneUse.ofCode (byte (cell [n, c, t1, t0, pol, settle] 1)) = some use := (congrArg _ (byte_toNat c)).trans code
  unfold laneTest
  rw [dif_pos (show cell [n, c, t1, t0, pol, settle] 0 < 16 from small), code]
  rfl

theorem laneTest_outside (outside : 16 ≤ n.toNat ∨ LaneUse.ofCode c = none ∨ 3000 < of16 t1 t0 ∨ 1 < pol.toNat ∨
    settle = 0 ∨ 50 < settle.toNat) : laneTest s rows [n, c, t1, t0, pol, settle] = some .range := by
  by_cases high : 16 ≤ n.toNat
  · exact laneTest_of_high rows high
  cases code : LaneUse.ofCode c with
  | none => exact laneTest_of_noUse rows code
  | some use =>
    rw [laneTest_of_use rows (l := ⟨n.toNat, by omega⟩) rfl code, if_pos]
    rcases outside with high' | noUse | travel | polarity | low | long
    · exact absurd high' high
    · rw [code] at noUse
      cases noUse
    · exact .inl travel
    · exact .inr (.inl polarity)
    · exact .inr (.inr (.inl fun ⟨pos, _⟩ => absurd ((toNat_eq_zero_iff settle).2 low) (by omega)))
    · exact .inr (.inr (.inl fun ⟨_, short⟩ => by omega))

theorem laneTest_inside {l : LaneNo} {use : LaneUse} (lane : n.toNat = l.val) (code : LaneUse.ofCode c = some use)
    (travel : of16 t1 t0 ≤ 3000) (polarity : pol.toNat ≤ 1) (low : settle ≠ 0) (high : settle.toNat ≤ 50) :
    laneTest s rows [n, c, t1, t0, pol, settle] =
      if useForbidden s l use then some .range
      else if (s.lanes[l]).slot.code ≠ 0 then some .collision else none := by
  rw [laneTest_of_use rows lane code]
  have pos : 1 ≤ settle.toNat := by
    have := mt (toNat_eq_zero_iff settle).1 low
    omega
  have fits : ¬3000 < of16 t1 t0 ∧ ¬1 < pol.toNat ∧ (1 ≤ settle.toNat ∧ settle.toNat ≤ 50) := by omega
  simp only [fits, and_self, not_true_eq_false, false_or]

end

theorem writeLane_row {n c t1 t0 pol settle : Byte} {l : LaneNo} {use : LaneUse} (lane : n.toNat = l.val)
    (code : LaneUse.ofCode c = some use) (s : State) : writeLane [n, c, t1, t0, pol, settle] s = { s with
      lanes := s.lanes.set l ⟨use, of16 t1 t0, decide (pol = 1), settle.toNat, (s.lanes[l]).slot, (s.lanes[l]).present,
        none, none, none⟩ } := by
  obtain ⟨v, small⟩ := l
  obtain rfl : n.toNat = v := lane
  have code : LaneUse.ofCode (byte (cell [n, c, t1, t0, pol, settle] 1)) = some use := (congrArg _ (byte_toNat c)).trans code
  have polarity : decide (cell [n, c, t1, t0, pol, settle] 4 = 1) = decide (pol = 1) :=
    decide_eq_decide.2 ⟨fun one => BitVec.eq_of_toNat_eq one, fun one => congrArg BitVec.toNat one⟩
  unfold writeLane
  rw [dif_pos (show cell [n, c, t1, t0, pol, settle] 0 < 16 from small), code]
  simp only [polarity]
  rfl

/-! ### LOAD_BAYS (R101) -/

theorem bayNamed_iff (s : State) (b : Nat) : bayNamed s b = true ↔ ∃ r ∈ pool s, ∃ p ∈ r.points, p.1 = b := by
  simp [bayNamed]

section
variable {n b p1 p0 a : Byte} (rows : List (List Byte))

theorem bayTest_of_high (high : 64 ≤ n.toNat) : bayTest s rows [n, b, p1, p0, a] = some .range :=
  dif_neg (Nat.not_lt.2 high)

/-- The tests of a bay row after that of its number. -/
theorem bayTest_of_row {i : Fin 64} (row : n.toNat = i.val) : bayTest s rows [n, b, p1, p0, a] =
    if 120 < b.toNat ∨ bayTwice s rows [n, b, p1, p0, a] ∨ par s Config.QUAY_LEN < of16 p1 p0 ∨ 31 < a.toNat then
      some .range
    else if (s.bays[i]).any fun x => bayNamed s x.bay then some .collision
    else none := by
  obtain ⟨v, small⟩ := i
  obtain rfl : n.toNat = v := row
  exact dif_pos small

theorem writeBay_row {i : Fin 64} {area : AreaNo} (row : n.toNat = i.val) (named : a.toNat = area.val) (s : State) :
    writeBay [n, b, p1, p0, a] s = { s with
      bays := s.bays.set i (if b = 0 then none else some ⟨b.toNat, of16 p1 p0, area⟩) } := by
  obtain ⟨v, small⟩ := i
  obtain rfl : n.toNat = v := row
  obtain ⟨x, few⟩ := area
  obtain rfl : a.toNat = x := named
  have empty : (cell [n, b, p1, p0, a] 1 = 0) = (b = 0) := propext (toNat_eq_zero_iff b)
  unfold writeBay
  rw [dif_pos ⟨small, few⟩]
  simp only [empty]
  rfl

end

/-- In a telegram of one row the bay number is sought in the other rows of the map. -/
theorem bayTwice_row {n b p1 p0 a : Byte} {i : Fin 64} (row : n.toNat = i.val) :
    bayTwice s [[n, b, p1, p0, a]] [n, b, p1, p0, a] = true ↔
      b ≠ 0 ∧ ∃ (j : Fin 64) (x : BayRow), j ≠ i ∧ s.bays[j] = some x ∧ x.bay = b.toNat := by
  have after (j : Fin 64) (other : j ≠ i) :
      bayAfter s [[n, b, p1, p0, a]] j = ((s.bays[j]).map (·.bay)).getD 0 := by
    have differs : ¬n.toNat = j.val := fun same => other (Fin.ext (same.symm.trans row))
    unfold bayAfter
    rw [List.find?_cons_of_neg (by simpa [cell] using differs)]
    rfl
  have filled : (cell [n, b, p1, p0, a] 1 ≠ 0) ↔ b ≠ 0 := not_congr (toNat_eq_zero_iff b)
  unfold bayTwice
  simp only [Bool.and_eq_true, decide_eq_true_eq, filled, List.any_eq_true]
  refine and_congr_right fun nonzero => ⟨?_, ?_⟩
  · rintro ⟨j, _, differs, same⟩
    have other : j ≠ i := fun eq => differs (eq ▸ row.symm)
    rw [after j other] at same
    cases entry : s.bays[j] with
    | none => rw [entry] at same; exact absurd same.symm (filled.2 nonzero)
    | some x => rw [entry] at same; exact ⟨j, x, other, entry, same⟩
  · rintro ⟨j, x, other, entry, same⟩
    refine ⟨j, List.mem_finRange j, fun eq => other (Fin.ext (eq.trans row)), ?_⟩
    rw [after j other, entry]
    exact same

/-- Settles O45: the tests of one row in their order, and the row written. -/
theorem loadLaneAndBayRows : Obligations.LoadLaneAndBayRows := by
  refine ⟨fun s t n c t1 t0 pol settle h body => ⟨fun outside => ?_, fun l use lane code travel polarity low high => ?_⟩,
    fun s t n b p1 p0 a h body => ⟨fun outside => ?_, fun i area row small travel place => ?_⟩⟩
  · exact loadLanes_command.row_failing h (by rw [body]; rfl) (by rw [body]; exact laneTest_outside _ outside)
  · have tests := laneTest_inside (s := s) [t.body] lane code travel polarity low high
    rw [← body] at tests
    refine ⟨fun taken => ?_, fun kept full => ?_, fun kept free => ?_⟩
    · rw [if_pos ((useForbidden_iff s l use).2 taken)] at tests
      exact loadLanes_command.row_failing h (by rw [body]; rfl) tests
    · rw [if_neg (mt (useForbidden_iff s l use).1 kept), if_pos (mt (slot_code_eq_zero_iff _).1 full)] at tests
      exact loadLanes_command.row_failing h (by rw [body]; rfl) tests
    · rw [if_neg (mt (useForbidden_iff s l use).1 kept), if_neg (not_not.2 ((slot_code_eq_zero_iff _).2 free))] at tests
      rw [loadLanes_command.row_passing h (by rw [body]; rfl) tests, body, writeLane_row lane code]
      rfl
  · refine loadBays_command.row_failing h (by rw [body]; rfl) ?_
    rw [body]
    by_cases high : 64 ≤ n.toNat
    · exact bayTest_of_high _ high
    · rw [bayTest_of_row (i := ⟨n.toNat, by omega⟩) _ rfl, if_pos]
      rcases outside with high' | bay | place | area
      · exact absurd high' high
      · exact .inl bay
      · exact .inr (.inr (.inl place))
      · exact .inr (.inr (.inr area))
  · have tests := bayTest_of_row (s := s) (b := b) (p1 := p1) (p0 := p0) (a := a) [t.body] row
    rw [← body] at tests
    have fits : ¬120 < b.toNat ∧ ¬par s Config.QUAY_LEN < of16 p1 p0 ∧ ¬31 < a.toNat := by omega
    simp only [fits, false_or, or_false] at tests
    have twice_iff := bayTwice_row (s := s) (n := n) (b := b) (p1 := p1) (p0 := p0) (a := a) row
    rw [← body] at twice_iff
    have named_iff : ((s.bays[i]).any fun x => bayNamed s x.bay) = true ↔
        ∃ x, s.bays[i] = some x ∧ ∃ r ∈ pool s, ∃ p ∈ r.points, p.1 = x.bay := by
      rw [Option.any_eq_true]
      exact exists_congr fun x => and_congr_right fun _ => bayNamed_iff s x.bay
    refine ⟨fun twice => ?_, fun once kept => ?_, fun once free => ?_⟩
    · rw [if_pos (twice_iff.2 twice)] at tests
      exact loadBays_command.row_failing h (by rw [body]; rfl) tests
    · rw [if_neg (mt twice_iff.1 once), if_pos (named_iff.2 kept)] at tests
      exact loadBays_command.row_failing h (by rw [body]; rfl) tests
    · rw [if_neg (mt twice_iff.1 once), if_neg (mt named_iff.1 free)] at tests
      rw [loadBays_command.row_passing h (by rw [body]; rfl) tests, body, writeBay_row row place]
      rfl

end Sys2Proof.Machine


/-! PROOFS. The lashing table: what the writing of a deck state or of a gang present does to the records, written out,
and what dispatch passes may do to them. -/

namespace Sys2Proof.Machine

variable {s t : State} {a : AreaNo}

/-! ### Reports offered one after another -/

theorem offered_append (is js : List Items) (s : State) : offered (is ++ js) s = offered js (offered is s) :=
  List.foldl_append

theorem offered_cons (i : Items) (is : List Items) (s : State) : offered (i :: is) s = offered is (report i s) := rfl

theorem offered_nil (s : State) : offered [] s = s := rfl

/-- Reports offered change the report queue alone. -/
theorem offered_state (is : List Items) : ∀ s : State, offered is s = { s with reports := (offered is s).reports } := by
  induction is with
  | nil => exact fun s => rfl
  | cons i is ih =>
    intro s
    rw [offered_cons, ih (report i s)]
    rw [report_state i s]

theorem offered_reports_congr (is : List Items) : ∀ {s t : State}, t.reports = s.reports → t.clock = s.clock →
    t.params = s.params → (offered is t).reports = (offered is s).reports := by
  induction is with
  | nil => exact fun reports _ _ => reports
  | cons i is ih =>
    intro s t reports clock params
    exact ih (report_reports_congr i reports clock params) ((report_clock _ i).trans (clock.trans (report_clock _ i).symm))
      ((report_params _ i).trans (params.trans (report_params _ i).symm))

theorem offered_of_same (is : List Items) (reports : t.reports = s.reports) (clock : t.clock = s.clock)
    (params : t.params = s.params) : offered is t = { t with reports := (offered is s).reports } := by
  rw [offered_state is t, offered_reports_congr is reports clock params]

/-! ### Eligibility and evaluation, by what they read -/

theorem evaluateRecord_congr (areas : t.areas = s.areas) (bays : t.bays = s.bays) (clock : t.clock = s.clock)
    (r : MoveRecord) : evaluateRecord t r = evaluateRecord s r := by
  cases s; cases t; cases areas; cases bays; cases clock; rfl

theorem eligible_congr (areas : t.areas = s.areas) (bays : t.bays = s.bays) (r : MoveRecord) :
    eligible t r = eligible s r := by
  cases s; cases t; cases areas; cases bays; rfl

theorem deckAreas_congr (bays : t.bays = s.bays) (r : MoveRecord) : deckAreas t r = deckAreas s r := by
  cases s; cases t; cases bays; rfl

theorem pointAreas_congr (bays : t.bays = s.bays) (r : MoveRecord) : pointAreas t r = pointAreas s r := by
  cases s; cases t; cases bays; rfl

theorem pointIn_of_deckIn {r : MoveRecord} (h : DeckIn s r a) : PointIn s r a := by
  obtain ⟨n, x, touches, row, area⟩ := h
  exact ⟨n, .deck, x, touches, row, area⟩

theorem mem_pointAreas_of_deckAreas {r : MoveRecord} (h : a ∈ deckAreas s r) : a ∈ pointAreas s r :=
  (mem_pointAreas_iff s r a).2 (pointIn_of_deckIn ((mem_deckAreas_iff s r a).1 h))

theorem bayAt_congr (bays : t.bays = s.bays) (n : Nat) (x : BayRow) : BayAt t n x ↔ BayAt s n x := by
  unfold BayAt
  rw [bays]

/-- Eligibility reads the deck states of the record's deck areas and the gangs of all its areas. -/
theorem eligible_eq_of_areas {r : MoveRecord} (bays : t.bays = s.bays)
    (decks : ∀ b ∈ deckAreas s r, (t.areas[b]).deck = (s.areas[b]).deck)
    (gangs : ∀ b ∈ pointAreas s r, (t.areas[b]).gang = (s.areas[b]).gang) : eligible t r = eligible s r := by
  have point (b : AreaNo) : PointIn t r b ↔ PointIn s r b := by
    rw [← mem_pointAreas_iff, ← mem_pointAreas_iff, pointAreas_congr bays]
  have lashed : LashedPoint t r ↔ LashedPoint s r := by
    refine exists_congr fun n => and_congr_right fun touches => forall_congr' fun x => ?_
    rw [bayAt_congr bays]
    refine forall_congr' fun at' => ?_
    rw [decks x.area ((mem_deckAreas_iff s r x.area).2 ⟨n, x, touches, at', rfl⟩)]
  have gang : GangPoint t r ↔ GangPoint s r := by
    refine exists_congr fun b => ?_
    rw [point]
    refine and_congr_right fun at' => ?_
    rw [gangs b ((mem_pointAreas_iff s r b).2 at')]
  rw [Bool.eq_iff_iff, eligible_iff, eligible_iff, lashed, gang]

theorem eligible_of_shut {r : MoveRecord} (deck : a ∈ deckAreas s r) (shut : (s.areas[a]).deck ≠ .opened) :
    eligible s r = false := by
  obtain ⟨n, x, touches, row, rfl⟩ := (mem_deckAreas_iff s r a).1 deck
  rw [← Bool.not_eq_true, eligible_iff]
  rintro ⟨_, met, _⟩
  refine met ⟨n, touches, fun y at' => ?_⟩
  have same : y = x := Option.some.inj (((bayRow_eq_some_iff s n y).2 at').symm.trans ((bayRow_eq_some_iff s n x).2 row))
  exact same ▸ shut

theorem eligible_of_ganged {r : MoveRecord} (point : a ∈ pointAreas s r) (gang : (s.areas[a]).gang ≠ none) :
    eligible s r = false := by
  rw [← Bool.not_eq_true, eligible_iff]
  rintro ⟨_, _, met⟩
  exact met ⟨a, (mem_pointAreas_iff s r a).1 point, gang⟩

/-! ### Records evaluated anew (R14) -/

/-- Record `r` as an event of area `a` leaves it, `areas` being the areas of a record that the event concerns and `x` the
state in which they are evaluated. -/
def anew (x : State) (areas : MoveRecord → List AreaNo) (a : AreaNo) (r : MoveRecord) : MoveRecord :=
  if r.busy = false ∧ a ∈ areas r then evaluateRecord x r else r

theorem anew_of_concerned {x : State} {areas : MoveRecord → List AreaNo} {r : MoveRecord} (idle : r.busy = false)
    (concerned : a ∈ areas r) : anew x areas a r = evaluateRecord x r := if_pos ⟨idle, concerned⟩

theorem anew_of_spared {x : State} {areas : MoveRecord → List AreaNo} {r : MoveRecord}
    (spared : r.busy = true ∨ a ∉ areas r) : anew x areas a r = r :=
  if_neg fun ⟨idle, concerned⟩ => spared.elim (fun busy => by rw [busy] at idle; cases idle) fun out => out concerned

theorem reevaluate_eq (x s : State) (areas : MoveRecord → List AreaNo)
    (h : ∀ r, evaluateRecord s r = evaluateRecord x r) : reevaluate (fun r => decide (a ∈ areas r)) s =
      { s with queues := Vector.ofFn fun k => (s.queues[k]).map (anew x areas a) } := by
  unfold reevaluate mapMoves
  have each : (fun r => if !r.busy && decide (a ∈ areas r) then evaluateRecord s r else r) = anew x areas a := by
    funext r
    unfold anew
    rw [h]
    simp
  rw [each]

/-- Area `a` with its deck state written. -/
def deckWritten (a : AreaNo) (d : Deck) (s : State) : State := { s with areas := s.areas.set a { s.areas[a] with deck := d } }

/-- Area `a` with its gang present written. -/
def gangWritten (a : AreaNo) (g : Option GangNo) (s : State) : State :=
  { s with areas := s.areas.set a { s.areas[a] with gang := g } }

theorem setDeck_eq (a : AreaNo) (d : Deck) (c : AreaCause) (s : State) : setDeck a d c s = { deckWritten a d s with
    queues := Vector.ofFn fun k => (s.queues[k]).map (anew (deckWritten a d s) (deckAreas s) a)
    reports := (report (.area a (s.areas[a]).deck d c) s).reports } := by
  have told : report (.area a (s.areas[a]).deck d c) (modArea a (fun x => { x with deck := d }) s) =
      { deckWritten a d s with reports := (report (.area a (s.areas[a]).deck d c) s).reports } :=
    report_of_same _ rfl rfl rfl
  unfold setDeck
  simp only [told]
  exact reevaluate_eq (deckWritten a d s) _ (deckAreas s) fun _ => rfl

theorem setGangPresent_eq (a : AreaNo) (g : Option GangNo) (s : State) : setGangPresent a g s = { gangWritten a g s with
    queues := Vector.ofFn fun k => (s.queues[k]).map (anew (gangWritten a g s) (pointAreas s) a) } :=
  reevaluate_eq (gangWritten a g s) (gangWritten a g s) (pointAreas s) fun _ => rfl

end Sys2Proof.Machine


/-! PROOFS. Jobs given, queued, withdrawn and returned, and the dispatch pass. -/

namespace Sys2Proof.Machine

variable {s t : State} {a : AreaNo}

/-! ### A deck state and a gang present written together -/

/-- Area `a` written. -/
def areaWritten (a : AreaNo) (x : Area) (s : State) : State := { s with areas := s.areas.set a x }

theorem areaWritten_get (x : Area) : (areaWritten a x s).areas[a] = x := by
  rw [show (areaWritten a x s).areas = s.areas.set a x from rfl, Vector.get_set]
  simp

theorem gangWritten_deckWritten (a : AreaNo) (d : Deck) (g : Option GangNo) (s : State) :
    gangWritten a g (deckWritten a d s) = areaWritten a ⟨d, (s.areas[a]).lashRequired, g⟩ s := by
  unfold gangWritten deckWritten areaWritten
  rw [show ((s.areas.set a { s.areas[a] with deck := d })[a] : Area) = { s.areas[a] with deck := d } by simp,
    Vector.set_set]

theorem evaluateRecord_busy (s : State) (r : MoveRecord) : (evaluateRecord s r).busy = false := by
  unfold evaluateRecord
  split <;> simp [MoveRecord.busy]

theorem evaluateRecord_of_shut {r : MoveRecord} (deck : a ∈ deckAreas s r) (shut : (s.areas[a]).deck ≠ .opened) :
    evaluateRecord s r = { r with state := .pending } := evaluateRecord_of_not_eligible (eligible_of_shut deck shut)

/-- Where the deck is shut, the evaluation for the deck state is made again by that for the gang present. -/
theorem anew_anew_of_shut {x y : State} (bays : y.bays = x.bays) (shutX : (x.areas[a]).deck ≠ .opened)
    (shutY : (y.areas[a]).deck ≠ .opened) (r : MoveRecord) :
    anew x (pointAreas x) a (anew y (deckAreas x) a r) = anew x (pointAreas x) a r := by
  by_cases concerned : r.busy = false ∧ a ∈ deckAreas x r
  · obtain ⟨idle, deck⟩ := concerned
    have deck' : a ∈ deckAreas y r := by rwa [deckAreas_congr bays]
    rw [anew_of_concerned idle deck, anew_of_concerned idle (mem_pointAreas_of_deckAreas deck),
      evaluateRecord_of_shut deck' shutY, evaluateRecord_of_shut deck shutX,
      anew_of_concerned rfl (show a ∈ pointAreas x { r with state := .pending } from mem_pointAreas_of_deckAreas deck),
      evaluateRecord_of_shut (show a ∈ deckAreas x { r with state := .pending } from deck) shutX]
  · rw [show anew y (deckAreas x) a r = r from if_neg concerned]

/-- A deck state that is not OPEN and a gang present are written one after the other. -/
theorem setGangPresent_setDeck_eq {d : Deck} (shut : d ≠ .opened) (g : Option GangNo) (c : AreaCause) (s : State) :
    setGangPresent a g (setDeck a d c s) = { areaWritten a ⟨d, (s.areas[a]).lashRequired, g⟩ s with
      queues := Vector.ofFn fun k =>
        (s.queues[k]).map (anew (areaWritten a ⟨d, (s.areas[a]).lashRequired, g⟩ s) (pointAreas s) a)
      reports := (report (.area a (s.areas[a]).deck d c) s).reports } := by
  have written := gangWritten_deckWritten a d g s
  have shutX : ((gangWritten a g (deckWritten a d s)).areas[a]).deck ≠ .opened := by
    rw [written, areaWritten_get]
    exact shut
  have shutY : ((deckWritten a d s).areas[a]).deck ≠ .opened := by
    rw [show (deckWritten a d s).areas = s.areas.set a { s.areas[a] with deck := d } from rfl, Vector.get_set]
    simpa using shut
  have moves : (Vector.ofFn fun k : CraneNo => ((Vector.ofFn fun k : CraneNo => (s.queues[k]).map
        (anew (deckWritten a d s) (deckAreas s) a))[k]).map (anew (gangWritten a g (deckWritten a d s)) (pointAreas s) a)) =
      Vector.ofFn fun k : CraneNo => (s.queues[k]).map (anew (gangWritten a g (deckWritten a d s)) (pointAreas s) a) := by
    congr 1
    funext k
    rw [Vector.ofFn_get, List.map_map]
    exact List.map_congr_left fun r _ =>
      anew_anew_of_shut (x := gangWritten a g (deckWritten a d s)) (y := deckWritten a d s) rfl shutX shutY r
  rw [setGangPresent_eq, setDeck_eq, ← written]
  exact congrArg (fun q => ({ gangWritten a g (deckWritten a d s) with
    queues := q, reports := (report (.area a (s.areas[a]).deck d c) s).reports } : State)) moves

/-! ### Jobs -/

theorem underWay_shut (k : JobKind) : k.underWay ≠ .opened := by cases k <;> decide

theorem waiting_shut (k : JobKind) : k.waiting ≠ .opened := by cases k <;> decide

/-- Area `j.area` once job `j` has been given to gang `g` (R113). -/
def jobArea (g : GangNo) (j : Job) (s : State) : State :=
  areaWritten j.area ⟨j.kind.underWay, (s.areas[j.area]).lashRequired, some g⟩ s

theorem giveJob_eq (g : GangNo) (j : Job) (s : State) : giveJob g j s = { jobArea g j s with
    gangs := s.gangs.set g ⟨.sent j, (s.gangs[g]).serial, .job⟩
    jobs := s.jobs.filter fun y => decide (y.area ≠ j.area)
    queues := Vector.ofFn fun k => (s.queues[k]).map (anew (jobArea g j s) (pointAreas s) j.area)
    reports := (offered [.area j.area (s.areas[j.area]).deck j.kind.underWay .dispatched, .gang g (.dispatched j)] s).reports
    } := by
  unfold giveJob
  rw [setGangPresent_setDeck_eq (underWay_shut j.kind)]
  refine (report_of_same (s := report (.area j.area (s.areas[j.area]).deck j.kind.underWay .dispatched) s) _ ?_ ?_ ?_).trans ?_
  · exact report_reports_congr _ rfl rfl rfl
  · exact (report_clock s _).symm
  · exact (report_params s _).symm
  · rfl

theorem returnJob_eq (j : Job) (s : State) : returnJob j s =
    { areaWritten j.area ⟨j.kind.waiting, (s.areas[j.area]).lashRequired, none⟩ s with
      jobs := j :: s.jobs
      queues := Vector.ofFn fun k => (s.queues[k]).map
        (anew (areaWritten j.area ⟨j.kind.waiting, (s.areas[j.area]).lashRequired, none⟩ s) (pointAreas s) j.area)
      reports := (report (.area j.area (s.areas[j.area]).deck j.kind.waiting .returned) s).reports } := by
  unfold returnJob
  rw [setGangPresent_setDeck_eq (waiting_shut j.kind)]
  have told := report_reports_congr (s := s) (t := setJobs (j :: s.jobs) s)
    (.area j.area (s.areas[j.area]).deck j.kind.waiting .returned) rfl rfl rfl
  exact congrArg (fun q => ({ areaWritten j.area ⟨j.kind.waiting, (s.areas[j.area]).lashRequired, none⟩ s with
    jobs := j :: s.jobs
    queues := Vector.ofFn fun k => (s.queues[k]).map
      (anew (areaWritten j.area ⟨j.kind.waiting, (s.areas[j.area]).lashRequired, none⟩ s) (pointAreas s) j.area)
    reports := q } : State)) told

theorem queueJob_eq (a : AreaNo) (k : JobKind) (c : AreaCause) (s : State) : queueJob a k c s =
    { deckWritten a k.waiting s with
      jobs := s.jobs ++ [⟨a, k⟩]
      queues := Vector.ofFn fun i => (s.queues[i]).map (anew (deckWritten a k.waiting s) (deckAreas s) a)
      reports := (report (.area a (s.areas[a]).deck k.waiting c) s).reports } := by
  unfold queueJob
  rw [setDeck_eq]
  have told := report_reports_congr (s := s) (t := setJobs (s.jobs ++ [⟨a, k⟩]) s)
    (.area a (s.areas[a]).deck k.waiting c) rfl rfl rfl
  exact congrArg (fun q => ({ deckWritten a k.waiting s with
    jobs := s.jobs ++ [⟨a, k⟩]
    queues := Vector.ofFn fun i => (s.queues[i]).map (anew (deckWritten a k.waiting s) (deckAreas s) a)
    reports := q } : State)) told

/-! ### The dispatch pass (R112) -/

theorem gangFree_iff (s : State) (g : GangNo) :
    gangFree s g = true ↔ (s.gangs[g]).state = .idle ∧ stationState s (.gang g) = .active := by simp [gangFree]

theorem dispatchable_iff (s : State) (j : Job) : dispatchable s j = true ↔
    ∀ r ∈ pool s, r.state = .staged ∨ r.state = .active → ¬PointIn s r j.area := by
  simp only [dispatchable, List.all_eq_true, Bool.or_eq_true, Bool.not_eq_true', decide_eq_true_eq, mem_pointAreas_iff]
  refine forall₂_congr fun r _ => ?_
  rw [← Bool.not_eq_true, busy_iff, or_comm (a := r.state = .staged)]
  tauto

theorem serveGang_of_busy {g : GangNo} (busy : ¬((s.gangs[g]).state = .idle ∧ stationState s (.gang g) = .active)) :
    serveGang s g = s := if_neg (mt (gangFree_iff s g).1 busy)

theorem serveGang_of_no_job (g : GangNo) (stuck : ∀ j ∈ s.jobs, dispatchable s j = false) : serveGang s g = s := by
  unfold serveGang
  have found : (serviceOrder s.jobs).find? (dispatchable s) = none := by
    refine List.find?_eq_none.2 fun j mem => ?_
    rw [stuck j]
    · decide
    · simp only [serviceOrder, List.mem_append, List.mem_filter] at mem
      exact mem.elim And.left And.left
  rw [found]
  exact ite_self s

theorem serveGang_of_job {g : GangNo} {j : Job} (free : (s.gangs[g]).state = .idle ∧ stationState s (.gang g) = .active)
    (found : (serviceOrder s.jobs).find? (dispatchable s) = some j) : serveGang s g = giveJob g j s := by
  unfold serveGang
  rw [if_pos ((gangFree_iff s g).2 free), found]

/-- The first dispatchable job in service order: the first of its kind, and of the LASH jobs only where no UNLASH job is
dispatchable. -/
theorem find_serviceOrder {p q : List Job} {j : Job} (jobs : s.jobs = p ++ j :: q) (clear : dispatchable s j = true)
    (first : ∀ y ∈ p, y.kind = j.kind → dispatchable s y = false)
    (unlashed : j.kind = .lash → ∀ y ∈ s.jobs, y.kind = .unlash → dispatchable s y = false) :
    (serviceOrder s.jobs).find? (dispatchable s) = some j := by
  have ofKind (kind : JobKind) (same : j.kind = kind) :
      (s.jobs.filter fun y => decide (y.kind = kind)).find? (dispatchable s) = some j := by
    rw [jobs, List.filter_append, List.filter_cons_of_pos (by simpa using same), List.find?_append,
      List.find?_eq_none.2 fun y mem => ?_, Option.none_or, List.find?_cons_of_pos clear]
    simp only [List.mem_filter, decide_eq_true_eq] at mem
    rw [first y mem.1 (mem.2.trans same.symm)]
    decide
  unfold serviceOrder
  rw [List.find?_append]
  cases kind : j.kind with
  | unlash => rw [ofKind .unlash kind, Option.some_or]
  | lash =>
    rw [ofKind .lash kind, List.find?_eq_none.2 fun y mem => ?_, Option.none_or]
    simp only [List.mem_filter, decide_eq_true_eq] at mem
    rw [unlashed kind y mem.1 mem.2]
    decide

theorem serveGangs_of_busy (gs : List GangNo)
    (busy : ∀ g ∈ gs, ¬((s.gangs[g]).state = .idle ∧ stationState s (.gang g) = .active)) : gs.foldl serveGang s = s := by
  induction gs with
  | nil => rfl
  | cons g gs ih =>
    rw [List.foldl_cons, serveGang_of_busy (busy g (by simp)), ih fun h mem => busy h (by simp [mem])]

/-- The gangs below `g`, `g` itself, and those above it. -/
theorem gangs_split (g : GangNo) : ∃ p q, gangs = p ++ g :: q ∧ ∀ h ∈ p, h < g := by
  obtain ⟨p, q, split⟩ := List.append_of_mem (List.mem_finRange g)
  refine ⟨p, q, split, fun h mem => ?_⟩
  have sorted : (List.finRange 6).Pairwise (· < ·) := List.pairwise_lt_finRange 6
  rw [split, List.pairwise_append] at sorted
  exact sorted.2.2 h mem g (by simp)

/-- One gang served, or none free: the rest of the pass is the pass of what it leaves. -/
theorem dispatchPass_of_job {g : GangNo} {j : Job} (running : s.berth.state = .running)
    (free : (s.gangs[g]).state = .idle ∧ stationState s (.gang g) = .active)
    (lowest : ∀ h < g, ¬((s.gangs[h]).state = .idle ∧ stationState s (.gang h) = .active))
    (found : (serviceOrder s.jobs).find? (dispatchable s) = some j) : dispatchPass s = dispatchPass (giveJob g j s) := by
  obtain ⟨p, q, split, below⟩ := gangs_split g
  have given : (giveJob g j s).gangs = s.gangs.set g ⟨.sent j, (s.gangs[g]).serial, .job⟩ := by rw [giveJob_eq]
  have stations : (giveJob g j s).stations = s.stations := (giveJob_lash g j s).stations
  have berth : (giveJob g j s).berth = s.berth := (giveJob_lash g j s).berth
  have still (h : GangNo) (lt : h < g) : ¬(((giveJob g j s).gangs[h]).state = .idle ∧
      stationState (giveJob g j s) (.gang h) = .active) := by
    unfold stationState
    rw [given, stations, Vector.get_set, if_neg (ne_of_lt lt)]
    exact lowest h lt
  have sent : ¬(((giveJob g j s).gangs[g]).state = .idle ∧ stationState (giveJob g j s) (.gang g) = .active) := by
    rw [given, Vector.get_set, if_pos rfl]
    rintro ⟨idle, _⟩
    cases idle
  unfold dispatchPass
  rw [if_pos running, if_pos (berth.symm ▸ running), split, List.foldl_append, List.foldl_append,
    serveGangs_of_busy p fun h mem => lowest h (below h mem), serveGangs_of_busy p fun h mem => still h (below h mem),
    List.foldl_cons, List.foldl_cons, serveGang_of_job free found, serveGang_of_busy sent]

theorem dispatchPass_of_stuck (stuck : s.berth.state ≠ .running ∨
    (∀ g : GangNo, ¬((s.gangs[g]).state = .idle ∧ stationState s (.gang g) = .active)) ∨
    ∀ j ∈ s.jobs, dispatchable s j = false) : dispatchPass s = s := by
  unfold dispatchPass
  rcases stuck with held | busy | none
  · exact if_neg held
  · rw [serveGangs_of_busy gangs fun g _ => busy g, ite_self]
  · rw [List.foldl_fixed' fun g => serveGang_of_no_job g none, ite_self]

/-! ### Records with a point in an area -/

theorem evaluateRecord_same (s : State) (r : MoveRecord) : evaluateRecord s r =
    { r with state := (evaluateRecord s r).state, readyTime := (evaluateRecord s r).readyTime } := by
  unfold evaluateRecord
  split <;> rfl

theorem evaluateRecord_state (s : State) (r : MoveRecord) :
    (evaluateRecord s r).state = if eligible s r then .ready else .pending := by
  unfold evaluateRecord
  split <;> rfl

theorem anew_same (x : State) (areas : MoveRecord → List AreaNo) (r : MoveRecord) : anew x areas a r =
    { r with state := (anew x areas a r).state, readyTime := (anew x areas a r).readyTime } := by
  unfold anew
  split
  · exact evaluateRecord_same x r
  · rfl

theorem anew_number (x : State) (areas : MoveRecord → List AreaNo) (r : MoveRecord) :
    (anew x areas a r).number = r.number := by rw [anew_same]

theorem anew_busy (x : State) (areas : MoveRecord → List AreaNo) (r : MoveRecord) :
    (anew x areas a r).busy = r.busy := by
  unfold anew
  split
  · next concerned => rw [evaluateRecord_busy, concerned.1]
  · rfl

/-- Records rewritten keep the numbers of a queue where the rewriting keeps each number. -/
theorem queueNumbers_map {f : MoveRecord → MoveRecord} {k : CraneNo} (queue : t.queues[k] = (s.queues[k]).map f)
    (number : ∀ r, (f r).number = r.number) : queueNumbers t k = queueNumbers s k := by
  unfold queueNumbers
  rw [queue, List.map_map]
  exact List.map_congr_left fun r _ => number r

/-- Evaluation sees of a record only what evaluation leaves. -/
theorem eligible_restated (s : State) {r r' : MoveRecord}
    (same : r' = { r with state := r'.state, readyTime := r'.readyTime }) : eligible s r' = eligible s r := by
  rw [same]
  rfl

theorem revalued_of_anew {x : State} (queues : ∀ k : CraneNo, t.queues[k] = (s.queues[k]).map (anew x (pointAreas s) a))
    (areas : t.areas = x.areas) (bays : t.bays = x.bays) : Revalued a s t := by
  intro k
  refine ⟨queueNumbers_map (queues k) (anew_number x _), fun r' mem => ?_⟩
  rw [queues k] at mem
  obtain ⟨r, old, rfl⟩ := List.mem_map.1 mem
  refine ⟨r, old, anew_same .., fun spared => ?_, fun idle point => ?_⟩
  · exact anew_of_spared (spared.imp_right (mt (mem_pointAreas_iff s r a).1))
  · rw [eligible_restated t (anew_same x (pointAreas s) r), eligible_congr areas bays,
      anew_of_concerned idle ((mem_pointAreas_iff s r a).2 point), evaluateRecord_state]

theorem pointIn_congr {r : MoveRecord} (bays : t.bays = s.bays) : PointIn t r a ↔ PointIn s r a := by
  rw [← mem_pointAreas_iff, ← mem_pointAreas_iff, pointAreas_congr bays]

theorem mem_pool_iff (s : State) (r : MoveRecord) : r ∈ pool s ↔ ∃ k : CraneNo, r ∈ s.queues[k] := by
  simp [pool, cranes]

/-- Settles O50: the pass serves the lowest free gang, and a job given shuts its area and has a gang present. -/
theorem dispatchPassGivesJobs : Obligations.DispatchPassGivesJobs := by
  refine ⟨fun s => ⟨fun stuck => dispatchPass_of_stuck (stuck.imp_right (Or.imp_right fun none j mem => ?_)),
    fun g p j q running free lowest jobs clear first unlashed => ?_⟩, fun s g j => ?_⟩
  · rw [← Bool.not_eq_true, dispatchable_iff]
    exact none j mem
  · have unclear (y : Job) (h : ¬∀ r ∈ pool s, r.state = .staged ∨ r.state = .active → ¬PointIn s r y.area) :
        dispatchable s y = false := by
      rw [← Bool.not_eq_true, dispatchable_iff]
      exact h
    exact dispatchPass_of_job running free lowest (find_serviceOrder jobs ((dispatchable_iff s j).2 clear)
      (fun y mem kind => unclear y (first y mem kind)) fun lash y mem kind => unclear y (unlashed lash y mem kind))
  · have deck : j.kind.underWay = if j.kind = .unlash then Deck.unlashing else .lashing := by cases j.kind <;> rfl
    have queues (k : CraneNo) : (giveJob g j s).queues[k] =
        (s.queues[k]).map (anew (jobArea g j s) (pointAreas s) j.area) := by rw [giveJob_eq, Vector.ofFn_get]
    have areas : (giveJob g j s).areas = (jobArea g j s).areas := by rw [giveJob_eq]
    have bays : (giveJob g j s).bays = s.bays := by rw [giveJob_eq]; rfl
    refine ⟨?_, revalued_of_anew queues areas bays, fun r' mem idle point => ?_⟩
    · rw [giveJob_eq, ← deck]
      rfl
    · obtain ⟨k, mem⟩ := (mem_pool_iff _ _).1 mem
      rw [queues k] at mem
      obtain ⟨r, -, rfl⟩ := List.mem_map.1 mem
      rw [anew_busy] at idle
      rw [pointIn_congr bays, anew_same] at point
      have concerned : j.area ∈ pointAreas s r := (mem_pointAreas_iff s r _).2 point
      rw [anew_of_concerned idle concerned, evaluateRecord_of_not_eligible (s := jobArea g j s)
        (eligible_of_ganged (a := j.area) concerned ?_)]
      rw [jobArea, areaWritten_get]
      exact Option.some_ne_none g

end Sys2Proof.Machine


/-! PROOFS. LOAD_AREAS of one row, and GANG_CLEAR. -/

namespace Sys2Proof.Machine

variable {s t : State} {a : AreaNo}

/-- What an uplink-free operation leaves in a state that was answered before it. -/
theorem UplinkFree.answered {f : State → State} (free : UplinkFree f) (up : Uplink) (s : State) :
    { f (withUplink up s) with uplink := up } = withUplink up (f s) := by
  rw [free up s]
  rfl

/-! ### A dispatch pass makes no move READY -/

/-- Every record that is READY in `t` stood in the same queue of `s`, as it is. -/
def ReadyBefore (s t : State) : Prop := ∀ (k : CraneNo), ∀ r ∈ t.queues[k], r.state = .ready → r ∈ s.queues[k]

theorem ReadyBefore.refl (s : State) : ReadyBefore s s := fun _ _ mem _ => mem

theorem ReadyBefore.trans {u : State} (h : ReadyBefore s t) (h' : ReadyBefore t u) : ReadyBefore s u :=
  fun k r mem ready => h k r (h' k r mem ready) ready

theorem anew_ganged {x : State} (bays : x.bays = s.bays) (gang : (x.areas[a]).gang ≠ none) {r : MoveRecord}
    (idle : r.busy = false) (point : a ∈ pointAreas s r) : (anew x (pointAreas s) a r).state = .pending := by
  rw [anew_of_concerned idle point,
    evaluateRecord_of_not_eligible (eligible_of_ganged (a := a) (by rwa [pointAreas_congr bays]) gang)]

theorem giveJob_readyBefore (g : GangNo) (j : Job) (s : State) : ReadyBefore s (giveJob g j s) := by
  intro k r' mem ready
  rw [giveJob_eq, Vector.ofFn_get] at mem
  obtain ⟨r, old, rfl⟩ := List.mem_map.1 mem
  by_cases concerned : r.busy = false ∧ j.area ∈ pointAreas s r
  · have gang : ((jobArea g j s).areas[j.area]).gang ≠ none := by
      rw [jobArea, areaWritten_get]
      exact Option.some_ne_none g
    rw [anew_ganged (s := s) (x := jobArea g j s) rfl gang concerned.1 concerned.2] at ready
    cases ready
  · rw [show anew (jobArea g j s) (pointAreas s) j.area r = r from if_neg concerned]
    exact old

theorem serveGang_readyBefore (s : State) (g : GangNo) : ReadyBefore s (serveGang s g) := by
  unfold serveGang
  split
  · split
    · exact giveJob_readyBefore g _ s
    · exact .refl s
  · exact .refl s

theorem dispatchPass_readyBefore (s : State) : ReadyBefore s (dispatchPass s) := by
  have passed (gs : List GangNo) : ∀ t, ReadyBefore t (gs.foldl serveGang t) := by
    induction gs with
    | nil => exact .refl
    | cons g gs ih => exact fun t => (serveGang_readyBefore t g).trans (ih _)
  unfold dispatchPass
  split
  · exact passed gangs s
  · exact .refl s

theorem newlyReady_of_readyBefore (h : ReadyBefore s t) : newlyReady s t = [] := by
  refine List.filter_eq_nil_iff.2 fun k _ => ?_
  simp only [List.any_eq_true, Bool.and_eq_true, decide_eq_true_eq, Bool.not_eq_true', not_exists, not_and]
  intro r mem ready new
  have old : ((s.queues[k]).any fun r0 => decide (r0.number = r.number) && decide (r0.state = .ready)) = true :=
    List.any_eq_true.2 ⟨r, h k r mem ready, by simp [ready]⟩
  rw [old] at new
  cases new

theorem tellRelease_of_readyBefore (h : ReadyBefore s t) : tellRelease s t = t := by
  unfold tellRelease
  rw [newlyReady_of_readyBefore h]
  rfl

/-! ### LOAD_AREAS (R102) -/

/-- No record of the pool is concerned: the records stay as they are. -/
theorem anew_queues_of_spared (x : State) {areas : MoveRecord → List AreaNo} (spared : ∀ r ∈ pool s, a ∉ areas r) :
    (Vector.ofFn fun k : CraneNo => (s.queues[k]).map (anew x areas a)) = s.queues := by
  refine Vector.ext_get fun k => ?_
  rw [Vector.ofFn_get]
  refine (List.map_congr_left fun r mem => ?_).trans (List.map_id _)
  exact anew_of_spared (.inr (spared r ((mem_pool_iff s r).2 ⟨k, mem⟩)))

theorem areaNamed_iff (s : State) (a : AreaNo) : areaNamed s a = true ↔ ∃ r ∈ pool s, a ∈ pointAreas s r := by
  simp [areaNamed]

/-- The deck state of an area that no move names and no gang is on, written by a LOAD_AREAS row. -/
theorem setDeck_of_unnamed {d : Deck} (unnamed : ∀ r ∈ pool s, a ∉ pointAreas s r) (c : AreaCause) :
    setDeck a d c s = { deckWritten a d s with reports := (report (.area a (s.areas[a]).deck d c) s).reports } := by
  rw [setDeck_eq, anew_queues_of_spared _ fun r mem deck => unnamed r mem (mem_pointAreas_of_deckAreas deck)]
  rfl

/-- The state that has the AREA report of a LOAD_AREAS row, where the row changes the deck state. -/
def loadTold (a : AreaNo) (d : Deck) (s : State) : State :=
  if (s.areas[a]).deck = d then s else report (.area a (s.areas[a]).deck d .loaded) s

/-- The row of an area that no move names and no gang is on, written, before the lash test. -/
def areaLoadedAs (a : AreaNo) (d : Deck) (flag : Bool) (s : State) : State :=
  { areaWritten a ⟨d, flag, none⟩ s with
    jobs := s.jobs.filter fun j => decide (j.area ≠ a)
    reports := (loadTold a d s).reports }

/-- An area without its queued job and with its flag written. -/
def flagLoaded (a : AreaNo) (flag : Bool) (s : State) : State :=
  { areaWritten a ⟨(s.areas[a]).deck, flag, (s.areas[a]).gang⟩ s with jobs := s.jobs.filter fun j => decide (j.area ≠ a) }

theorem flagLoaded_get (flag : Bool) (s : State) :
    (flagLoaded a flag s).areas[a] = ⟨(s.areas[a]).deck, flag, (s.areas[a]).gang⟩ := areaWritten_get _

theorem deckWritten_flagLoaded (d : Deck) (flag : Bool) (s : State) : deckWritten a d (flagLoaded a flag s) =
    { areaWritten a ⟨d, flag, (s.areas[a]).gang⟩ s with jobs := s.jobs.filter fun j => decide (j.area ≠ a) } := by
  unfold deckWritten
  rw [flagLoaded_get]
  unfold flagLoaded areaWritten
  simp only [Vector.set_set]

theorem loadArea_eq {d : Deck} {flag : Bool} (unnamed : ∀ r ∈ pool s, a ∉ pointAreas s r)
    (alone : (s.areas[a]).gang = none) : loadArea a d flag s =
      if d = .opened ∧ flag = true then lashTest (areaLoadedAs a d flag s) a else areaLoadedAs a d flag s := by
  have written : (if ((flagLoaded a flag s).areas[a]).deck = d then flagLoaded a flag s
      else setDeck a d .loaded (flagLoaded a flag s)) = areaLoadedAs a d flag s := by
    rw [flagLoaded_get]
    unfold areaLoadedAs loadTold
    by_cases same : (s.areas[a]).deck = d
    · rw [if_pos same, if_pos same]
      unfold flagLoaded
      rw [same, alone]
      rfl
    · rw [if_neg same, if_neg same, setDeck_of_unnamed (s := flagLoaded a flag s) unnamed, flagLoaded_get,
        deckWritten_flagLoaded, alone, report_reports_congr (s := s) (t := flagLoaded a flag s) _ rfl rfl rfl]
  exact congrArg (fun u => if d = .opened ∧ flag = true then lashTest u a else u) written

theorem noDeckWork_iff (s : State) (a : AreaNo) : noDeckWork s a = true ↔ NoDeckWork s a := by
  simp [noDeckWork, NoDeckWork, mem_deckAreas_iff]

theorem lashDue_iff (s : State) (a : AreaNo) : lashDue s a = true ↔
    (s.areas[a]).deck = .opened ∧ (s.areas[a]).lashRequired = true ∧ NoDeckWork s a := by
  simp [lashDue, noDeckWork_iff, and_assoc]

/-- An area that a row has left OPEN with its flag set, with the LASH job that its lash test queues. -/
def lashLoaded (a : AreaNo) (s : State) : State :=
  { areaWritten a ⟨.lashWait, true, none⟩ s with
    jobs := (s.jobs.filter fun j => decide (j.area ≠ a)) ++ [⟨a, .lash⟩]
    reports := (report (.area a .opened .lashWait .lashQueued) (loadTold a .opened s)).reports }

/-- The lash test of an area that a row has left OPEN with its flag set. -/
theorem lashTest_areaLoadedAs (unnamed : ∀ r ∈ pool s, a ∉ pointAreas s r) :
    lashTest (areaLoadedAs a .opened true s) a = dispatchPass (lashLoaded a s) := by
  have row : (areaLoadedAs a .opened true s).areas[a] = ⟨.opened, true, none⟩ := areaWritten_get _
  have spared : ∀ r ∈ pool (areaLoadedAs a .opened true s), a ∉ deckAreas (areaLoadedAs a .opened true s) r :=
    fun r mem deck => unnamed r mem (mem_pointAreas_of_deckAreas (s := s) deck)
  have due : lashDue (areaLoadedAs a .opened true s) a = true := by
    rw [lashDue_iff, row]
    exact ⟨rfl, rfl, fun r mem deck => spared r mem ((mem_deckAreas_iff _ r a).2 deck)⟩
  have told : (loadTold a .opened s).clock = s.clock ∧ (loadTold a .opened s).params = s.params := by
    unfold loadTold
    split <;> simp
  unfold lashTest
  rw [if_pos due, createJob, queueJob_eq, anew_queues_of_spared _ spared, row,
    report_reports_congr (s := loadTold a .opened s) (t := areaLoadedAs a .opened true s) _ rfl told.1.symm told.2.symm]
  unfold deckWritten
  rw [row]
  unfold areaLoadedAs lashLoaded areaWritten
  simp only [Vector.set_set]
  rfl

theorem lashLoaded_passed (a : AreaNo) (s : State) :
    tellRelease s (dispatchPass (lashLoaded a s)) = dispatchPass (lashLoaded a s) := by
  refine tellRelease_of_readyBefore fun k r mem ready => ?_
  exact dispatchPass_readyBefore (lashLoaded a s) k r mem ready

/-! #### The row -/

theorem loadedDeck_eq {d : Byte} {deck : Deck} (h : d = 0 ∧ deck = .lashed ∨ d = 3 ∧ deck = .opened) :
    loadedDeck d.toNat = some deck := by
  rcases h with ⟨rfl, rfl⟩ | ⟨rfl, rfl⟩ <;> rfl

theorem loadedDeck_eq_none {d : Byte} (lashed : d ≠ 0) (opened : d ≠ 3) : loadedDeck d.toNat = none := by
  unfold loadedDeck
  split
  · next zero => exact absurd (BitVec.eq_of_toNat_eq zero) lashed
  · next three => exact absurd (BitVec.eq_of_toNat_eq three) opened
  · rfl

section
variable {n d f : Byte} (rows : List (List Byte))

theorem areaTest_of_high (high : 32 ≤ n.toNat) : areaTest s rows [n, d, f] = some .range := dif_neg (Nat.not_lt.2 high)

/-- The tests of an area row after that of its number. -/
theorem areaTest_of_row (row : n.toNat = a.val) : areaTest s rows [n, d, f] =
    if (loadedDeck d.toNat).isNone ∨ 1 < f.toNat then some .range
    else if areaNamed s a ∨ (s.areas[a]).gang.isSome then some .collision
    else none := by
  obtain ⟨v, small⟩ := a
  obtain rfl : n.toNat = v := row
  exact dif_pos small

theorem writeArea_row {deck : Deck} (row : n.toNat = a.val) (code : loadedDeck d.toNat = some deck) (s : State) :
    writeArea [n, d, f] s = loadArea a deck (decide (f = 1)) s := by
  obtain ⟨v, small⟩ := a
  obtain rfl : n.toNat = v := row
  have flag : decide (cell [n, d, f] 2 = 1) = decide (f = 1) :=
    decide_eq_decide.2 ⟨fun one => BitVec.eq_of_toNat_eq one, fun one => congrArg BitVec.toNat one⟩
  unfold writeArea
  rw [dif_pos (show cell [n, d, f] 0 < 32 from small), show loadedDeck (cell [n, d, f] 1) = some deck from code]
  simp only [flag]
  rfl

theorem areaTest_outside (outside : 32 ≤ n.toNat ∨ (d ≠ 0 ∧ d ≠ 3) ∨ 1 < f.toNat) :
    areaTest s rows [n, d, f] = some .range := by
  by_cases high : 32 ≤ n.toNat
  · exact areaTest_of_high rows high
  · rw [areaTest_of_row (a := ⟨n.toNat, by omega⟩) rows rfl, if_pos]
    rcases outside with high' | ⟨lashed, opened⟩ | flag
    · exact absurd high' high
    · exact .inl (by rw [loadedDeck_eq_none lashed opened]; rfl)
    · exact .inr flag

end

/-- Settles O46: the tests of the row, the row written with its lash test, and no move made READY by it. -/
theorem loadAreaRow : Obligations.LoadAreaRow := by
  intro s t n d f h body
  refine ⟨fun outside => ?_, fun a deck row code flag => ?_⟩
  · exact loadAreas_command.row_failing h (by rw [body]; rfl) (by rw [body]; exact areaTest_outside _ outside)
  · have tests := areaTest_of_row (s := s) (d := d) (f := f) [t.body] row
    rw [loadedDeck_eq code, if_neg (by simpa using flag), ← body] at tests
    have kept_iff : (areaNamed s a = true ∨ (s.areas[a]).gang.isSome = true) ↔
        (∃ r ∈ pool s, a ∈ pointAreas s r) ∨ (s.areas[a]).gang ≠ none := by
      rw [areaNamed_iff, Option.isSome_iff_ne_none]
    have len : t.body.length = 2 + 1 := by rw [body]; rfl
    have written (free : ¬((∃ r ∈ pool s, a ∈ pointAreas s r) ∨ (s.areas[a]).gang ≠ none)) :
        exec .loadAreas s = .next (withUplink (answeredUplink s.uplink t .accepted [] none) (tellRelease s
          (if deck = .opened ∧ decide (f = 1) = true then lashTest (areaLoadedAs a deck (decide (f = 1)) s) a
            else areaLoadedAs a deck (decide (f = 1)) s))) := by
      rw [if_neg (mt kept_iff.1 free)] at tests
      rw [loadAreas_command.row_passing h len tests, body, writeArea_row row (loadedDeck_eq code), loadArea_eq]
      · exact fun r mem point => free (.inl ⟨r, mem, point⟩)
      · exact not_not.1 fun gang => free (.inr gang)
    have passed (free : ¬((∃ r ∈ pool s, a ∈ pointAreas s r) ∨ (s.areas[a]).gang ≠ none)) (opened : deck = .opened)
        (flagged : f = 1) : exec .loadAreas s =
          .next (withUplink (answeredUplink s.uplink t .accepted [] none) (dispatchPass (lashLoaded a s))) := by
      rw [written free, if_pos ⟨opened, decide_eq_true flagged⟩, opened, decide_eq_true flagged,
        lashTest_areaLoadedAs fun r mem point => free (.inl ⟨r, mem, point⟩), lashLoaded_passed]
    intro kept others told up v
    have v_eq (opened : deck = .opened) : v = withUplink up (lashLoaded a s) := by
      subst opened
      rfl
    refine ⟨fun kept => ?_, fun free shut => ?_, fun free opened flagged held => ?_, fun free opened flagged => ?_⟩
    · rw [if_pos (kept_iff.2 kept)] at tests
      exact loadAreas_command.row_failing h len tests
    · rw [written free, if_neg (by simpa using shut),
        tellRelease_of_readyBefore (s := s) (t := areaLoadedAs a deck (decide (f = 1)) s) fun _ _ mem _ => mem]
      rfl
    · rw [passed free opened flagged, dispatchPass_of_held (s := lashLoaded a s) held, v_eq opened]
    · rw [passed free opened flagged, v_eq opened]
      exact ⟨congrArg Host.Outcome.next (UplinkFree.answered dispatchPass_uplinkFree up (lashLoaded a s)).symm,
        (QReach.workFrame (dispatchPass_quiet _)).withUplink _⟩

end Sys2Proof.Machine


/-! PROOFS. Gangs: GANG_CLEAR, the events and the indication of a gang's reply. -/

namespace Sys2Proof.Machine

variable {s t : State} {a : AreaNo}

/-! ### A gang leaves its job (R111, R117) -/

/-- Gang `g` written OFF, with mark `m`. -/
def gangOff (g : GangNo) (m : GangMark) (s : State) : State :=
  { s with gangs := s.gangs.set g ⟨.off, (s.gangs[g]).serial, m⟩ }

/-- What gang `g` leaves when it returns job `j`: the gang OFF with mark `m` and its report `r`, the job at the head of the
queue, the area back in its wait state and its records evaluated. -/
def jobBack (g : GangNo) (m : GangMark) (r : GangReport) (j : Job) (s : State) : State :=
  { areaWritten j.area ⟨j.kind.waiting, (s.areas[j.area]).lashRequired, none⟩ s with
    gangs := s.gangs.set g ⟨.off, (s.gangs[g]).serial, m⟩
    jobs := j :: s.jobs
    queues := Vector.ofFn fun k => (s.queues[k]).map
      (anew (areaWritten j.area ⟨j.kind.waiting, (s.areas[j.area]).lashRequired, none⟩ s) (pointAreas s) j.area)
    reports := (offered [.area j.area (s.areas[j.area]).deck j.kind.waiting .returned, .gang g r] s).reports }

theorem gangLeaves_of_job {g : GangNo} {j : Job} (job : (s.gangs[g]).state.job = some j) (m : GangMark) (r : GangReport) :
    gangLeaves g m r s = jobBack g m r j s := by
  unfold gangLeaves
  rw [job]
  simp only [returnJob_eq]
  refine (report_of_same (s := report (.area j.area (s.areas[j.area]).deck j.kind.waiting .returned) s) _ ?_ ?_ ?_).trans ?_
  · rfl
  · exact (report_clock s _).symm
  · exact (report_params s _).symm
  · rfl

theorem gangLeaves_of_none {g : GangNo} (job : (s.gangs[g]).state.job = none) (m : GangMark) (r : GangReport) :
    gangLeaves g m r s = { gangOff g m s with reports := (report (.gang g r) s).reports } := by
  unfold gangLeaves
  rw [job]
  exact report_of_same _ rfl rfl rfl

theorem gangLeaves_uplinkFree (g : GangNo) (m : GangMark) (r : GangReport) : UplinkFree (gangLeaves g m r) := by
  intro u s
  cases job : (s.gangs[g]).state.job with
  | none =>
    rw [gangLeaves_of_none job, gangLeaves_of_none (s := withUplink u s) job,
      report_reports_congr (s := s) (t := withUplink u s) _ rfl rfl rfl]
    rfl
  | some j =>
    rw [gangLeaves_of_job job, gangLeaves_of_job (s := withUplink u s) job]
    unfold jobBack
    rw [offered_reports_congr (s := s) (t := withUplink u s) _ rfl rfl rfl]
    rfl

/-! ### GANG_CLEAR (R117) -/

theorem takeGangClear_of_long {body : List Byte} (long : body.length ≠ 1) (s : State) :
    takeGangClear body s = refuse .range s := by
  unfold takeGangClear
  split
  · exact absurd rfl long
  · rfl

theorem takeGangClear_of_high {b : Byte} (high : 6 ≤ b.toNat) (s : State) :
    takeGangClear [b] s = refuse .range s := dif_neg (Nat.not_lt.2 high)

/-- What a GANG_CLEAR does to gang `g` that is not OFF. -/
def gangCleared (g : GangNo) (s : State) : State :=
  dispatchPass (tellRelease s (gangLeaves g .cancel (.cleared (s.gangs[g]).state.job) s))

theorem takeGangClear_of_gang {b : Byte} {g : GangNo} (named : b.toNat = g.val) (s : State) : takeGangClear [b] s =
    if (s.gangs[g]).state = .off then refuse .state s else accept (gangCleared g s) := by
  obtain ⟨v, small⟩ := g
  obtain rfl : b.toNat = v := named
  exact dif_pos small

theorem byte_gang (g : GangNo) : (byte g.val).toNat = g.val := by
  simp [byte]
  omega

theorem gangCleared_uplinkFree (g : GangNo) : UplinkFree (gangCleared g) := fun u s => by
  unfold gangCleared
  rw [← dispatchPass_uplinkFree, ← tellRelease_uplinkFree, ← gangLeaves_uplinkFree]
  rfl

theorem anew_plan (x : State) (areas : MoveRecord → List AreaNo) (r : MoveRecord) : SamePlan r (anew x areas a r) := by
  unfold anew
  split
  · exact evaluateRecord_plan x r
  · exact .refl r

/-- A gang that leaves keeps the frame of evaluations, from the state with the gang OFF. -/
theorem gangLeaves_workFrame (g : GangNo) (m : GangMark) (r : GangReport) (s : State) :
    WorkFrame (gangOff g m s) (gangLeaves g m r s) := by
  cases job : (s.gangs[g]).state.job with
  | none =>
    rw [gangLeaves_of_none job]
    exact { WorkFrame.refl (gangOff g m s) with }
  | some j =>
    rw [gangLeaves_of_job job]
    refine { WorkFrame.refl (gangOff g m s) with moves := fun k => ?_, flags := fun a => ?_ }
    · rw [jobBack, Vector.ofFn_get]
      exact SameMoves.map (fun r => anew_plan ..) _
    · rw [show (jobBack g m r j s).areas =
        s.areas.set j.area ⟨j.kind.waiting, (s.areas[j.area]).lashRequired, none⟩ from rfl, Vector.get_set]
      split
      · next same => rw [same]; rfl
      · rfl

/-- Evaluations and a dispatch pass of a berth that is not RUNNING leave jobs, areas and reports. -/
theorem dispatchPass_tellRelease_of_held (s0 : State) (held : s.berth.state ≠ .running) :
    ∃ v n, dispatchPass (tellRelease s0 s) = { s with lanes := v, freeCount := n } := by
  have closed (k : CraneNo) : releaseCondition s k = false := by
    rw [← Bool.not_eq_true, releaseCondition_iff, craneOpen_iff]
    exact fun ⟨⟨_, _, _, _, _, running⟩, _⟩ => held running
  obtain ⟨v, n, eq⟩ := evaluateMany_of_closed (newlyReady s0 s) closed
  refine ⟨v, n, ?_⟩
  rw [show tellRelease s0 s = _ from eq, dispatchPass_of_held]
  exact held

/-- Settles O48: the tests of the gang, its job returned by `gangLeaves`, and the evaluations and the pass that follow. -/
theorem gangClearTaken : Obligations.GangClearTaken := by
  intro s t h
  refine ⟨fun long => ?_, fun b body high => ?_, fun g body => ⟨fun off => ?_, fun present => ?_⟩⟩
  · exact congrArg Host.Outcome.next (management_refused h (by decide) (takeGangClear_of_long long _))
  · exact congrArg Host.Outcome.next
      (management_refused h (by decide) (by rw [body]; exact takeGangClear_of_high high _))
  · refine congrArg Host.Outcome.next (management_refused h (by decide) ?_)
    rw [body, takeGangClear_of_gang (byte_gang g)]
    exact if_pos off
  · intro up w returned v u
    have v_eq : gangLeaves g .cancel (.cleared (s.gangs[g]).state.job) s = v := by
      cases state : (s.gangs[g]).state with
      | off => exact absurd state present
      | idle =>
        simp only [v, state]
        exact gangLeaves_of_none (by rw [state]; rfl) _ _
      | sent j =>
        simp only [v, state]
        exact gangLeaves_of_job (by rw [state]; rfl) _ _
      | working j =>
        simp only [v, state]
        exact gangLeaves_of_job (by rw [state]; rfl) _ _
    have u_eq : u = withUplink up (gangCleared g s) := by
      rw [gangCleared, v_eq]
      rfl
    have done : exec .gangClear s = .next u := by
      rw [u_eq]
      refine congrArg Host.Outcome.next (management_done h (by decide) (gangCleared_uplinkFree g) ?_)
      rw [body, takeGangClear_of_gang (byte_gang g)]
      exact if_neg present
    refine ⟨done, ?_, fun held => ?_⟩
    · rw [u_eq]
      refine WorkFrame.withUplink ?_ up
      exact (gangLeaves_workFrame g .cancel _ s).trans
        (QReach.workFrame ((tellRelease_quiet ..).trans (dispatchPass_quiet _)))
    · have held' : v.berth.state ≠ .running := by
        rw [← v_eq, (gangLeaves_workFrame ..).berth]
        exact held
      obtain ⟨l, n, eq⟩ := dispatchPass_tellRelease_of_held s held'
      have kept : u = { v with lanes := l, freeCount := n, uplink := up } := by
        rw [u_eq, gangCleared, v_eq, eq]
        rfl
      rw [kept]
      refine ⟨fun j job => ?_, fun idle => ?_⟩
      · have left : v = jobBack g .cancel (.cleared (some j)) j s := by
          rcases job with job | job <;> rw [← v_eq, job] <;> exact gangLeaves_of_job (by rw [job]; rfl) _ _
        rw [left]
        exact ⟨rfl, rfl, rfl⟩
      · rw [← v_eq, idle, gangLeaves_of_none (by rw [idle]; rfl)]
        exact ⟨rfl, rfl, rfl⟩

end Sys2Proof.Machine


/-! PROOFS. A gang's events and its signed-on indication (R109 to R111). -/

namespace Sys2Proof.Machine

variable {s t : State} {a : AreaNo} {g : GangNo} {j : Job}

/-! ### Records that an event of an area may have touched -/

/-- A rewriting of records that evaluations for area `a` may make: only the state and the ready time change, no record
becomes or ceases to be STAGED or ACTIVE, and one that is so or has no point in the area stays. -/
structure Touching (s : State) (a : AreaNo) (f : MoveRecord → MoveRecord) : Prop where
  same : ∀ r, f r = { r with state := (f r).state, readyTime := (f r).readyTime }
  busy : ∀ r, (f r).busy = r.busy
  spared : ∀ r, r.busy = true ∨ a ∉ pointAreas s r → f r = r

theorem anew_touching (x : State) {areas : MoveRecord → List AreaNo} (sub : ∀ r, a ∈ areas r → a ∈ pointAreas s r) :
    Touching s a (anew x areas a) where
  same := anew_same x areas
  busy := anew_busy x areas
  spared := fun r h => anew_of_spared (h.imp_right (mt (sub r)))

theorem Touching.comp {f f' : MoveRecord → MoveRecord} (h : Touching s a f) (h' : Touching s a f') :
    Touching s a (f' ∘ f) where
  same := fun r => by
    have first := h.same r
    have second := h'.same (f r)
    simp only [Function.comp]
    rw [second, first]
  busy := fun r => (h'.busy (f r)).trans (h.busy r)
  spared := fun r spared => by
    simp only [Function.comp]
    rw [h.spared r spared, h'.spared r spared]

theorem Touching.eligible {f : MoveRecord → MoveRecord} (h : Touching s a f) (x : State) (r : MoveRecord) :
    eligible x (f r) = eligible x r := eligible_restated x (h.same r)

theorem Touching.pointAreas {f : MoveRecord → MoveRecord} (h : Touching s a f) (x : State) (r : MoveRecord) :
    pointAreas x (f r) = pointAreas x r := by
  rw [h.same r]
  rfl

theorem Touching.deckAreas {f : MoveRecord → MoveRecord} (h : Touching s a f) (x : State) (r : MoveRecord) :
    deckAreas x (f r) = deckAreas x r := by
  rw [h.same r]
  rfl

theorem revalued_of_touching {x : State} {f : MoveRecord → MoveRecord} (touching : Touching s a f)
    (queues : ∀ k : CraneNo, t.queues[k] = (s.queues[k]).map f) (areas : t.areas = x.areas) (bays : t.bays = x.bays)
    (state : ∀ r, r.busy = false → a ∈ pointAreas s r → (f r).state = if eligible x r then .ready else .pending) :
    Revalued a s t := by
  intro k
  refine ⟨queueNumbers_map (queues k) fun r => by rw [touching.same r], fun r' mem => ?_⟩
  rw [queues k] at mem
  obtain ⟨r, old, rfl⟩ := List.mem_map.1 mem
  refine ⟨r, old, touching.same r, fun spared => ?_, fun idle point => ?_⟩
  · exact touching.spared r (spared.imp_right (mt (mem_pointAreas_iff s r a).1))
  · rw [touching.eligible, eligible_congr areas bays]
    exact state r idle ((mem_pointAreas_iff s r a).2 point)

/-! ### A job that DONE ends (R110) -/

/-- The area of job `j` once the job is done. -/
def doneArea (j : Job) (s : State) : State := areaWritten j.area ⟨j.kind.ended, (s.areas[j.area]).lashRequired, none⟩ s

/-- A record as the end of job `j` leaves it: evaluated for the deck state, and then for the gang present. -/
def doneRecord (j : Job) (s : State) : MoveRecord → MoveRecord :=
  anew (doneArea j s) (pointAreas s) j.area ∘ anew (deckWritten j.area j.kind.ended s) (deckAreas s) j.area

theorem doneRecord_touching (j : Job) (s : State) : Touching s j.area (doneRecord j s) :=
  (anew_touching _ fun _ => mem_pointAreas_of_deckAreas).comp (anew_touching _ fun _ => id)

theorem doneRecord_state {r : MoveRecord} (idle : r.busy = false) (point : j.area ∈ pointAreas s r) :
    (doneRecord j s r).state = if eligible (doneArea j s) r then .ready else .pending := by
  have first : Touching s j.area (anew (deckWritten j.area j.kind.ended s) (deckAreas s) j.area) :=
    anew_touching _ fun _ => mem_pointAreas_of_deckAreas
  rw [doneRecord, Function.comp, anew_of_concerned ((first.busy r).trans idle) (by rwa [first.pointAreas]),
    evaluateRecord_state, first.eligible]

/-- What a DONE leaves before the test of its area. -/
def jobEnded (g : GangNo) (j : Job) (seen : Bool) (s : State) : State :=
  { doneArea j s with
    gangs := s.gangs.set g ⟨.idle, (s.gangs[g]).serial, .clear⟩
    queues := Vector.ofFn fun k => (s.queues[k]).map (doneRecord j s)
    reports := (offered [.area j.area (s.areas[j.area]).deck j.kind.ended .done, .gang g (.done j seen)] s).reports }

theorem setGangPresent_setDeck_done (j : Job) (s : State) :
    setGangPresent j.area none (setDeck j.area j.kind.ended .done s) = { doneArea j s with
      queues := Vector.ofFn fun k => (s.queues[k]).map (doneRecord j s)
      reports := (report (.area j.area (s.areas[j.area]).deck j.kind.ended .done) s).reports } := by
  have written := gangWritten_deckWritten j.area j.kind.ended none s
  have moves : (Vector.ofFn fun k : CraneNo => ((Vector.ofFn fun k : CraneNo => (s.queues[k]).map
        (anew (deckWritten j.area j.kind.ended s) (deckAreas s) j.area))[k]).map
          (anew (gangWritten j.area none (deckWritten j.area j.kind.ended s)) (pointAreas s) j.area)) =
      Vector.ofFn fun k : CraneNo => (s.queues[k]).map (doneRecord j s) := by
    congr 1
    funext k
    rw [Vector.ofFn_get, List.map_map, written]
    rfl
  rw [setGangPresent_eq, setDeck_eq, doneArea, ← written]
  exact congrArg (fun q => ({ gangWritten j.area none (deckWritten j.area j.kind.ended s) with
    queues := q, reports := (report (.area j.area (s.areas[j.area]).deck j.kind.ended .done) s).reports } : State)) moves

theorem report_setGangPresent_done (g : GangNo) (j : Job) (seen : Bool) (s : State) :
    report (.gang g (.done j seen)) (modGang g (fun x => { x with state := .idle, mark := .clear })
      (setGangPresent j.area none (setDeck j.area j.kind.ended .done s))) = jobEnded g j seen s := by
  rw [setGangPresent_setDeck_done]
  refine (report_of_same (s := report (.area j.area (s.areas[j.area]).deck j.kind.ended .done) s) _ ?_ ?_ ?_).trans ?_
  · rfl
  · exact (report_clock s _).symm
  · exact (report_params s _).symm
  · rfl

theorem gangDone_of_unlash (kind : j.kind = .unlash) (g : GangNo) (seen : Bool) (s : State) : gangDone g j seen s =
    if lashDue (jobEnded g j seen s) j.area then queueJob j.area .lash .lashQueued (jobEnded g j seen s)
    else jobEnded g j seen s := by
  rw [← report_setGangPresent_done]
  unfold gangDone
  rw [kind]

theorem gangDone_of_lash (kind : j.kind = .lash) (g : GangNo) (seen : Bool) (s : State) : gangDone g j seen s =
    if unlashDue (jobEnded g j seen s) j.area then queueJob j.area .unlash .unlashQueued (jobEnded g j seen s)
    else jobEnded g j seen s := by
  rw [← report_setGangPresent_done]
  unfold gangDone
  rw [kind]

theorem jobEnded_area (g : GangNo) (j : Job) (seen : Bool) (s : State) :
    (jobEnded g j seen s).areas[j.area] = ⟨j.kind.ended, (s.areas[j.area]).lashRequired, none⟩ := areaWritten_get _

theorem jobEnded_queue (g : GangNo) (j : Job) (seen : Bool) (s : State) (k : CraneNo) :
    (jobEnded g j seen s).queues[k] = (s.queues[k]).map (doneRecord j s) := Vector.ofFn_get ..

theorem noDeckWork_jobEnded (g : GangNo) (j : Job) (seen : Bool) (s : State) :
    NoDeckWork (jobEnded g j seen s) a ↔ NoDeckWork s a := by
  have deck (r : MoveRecord) : DeckIn (jobEnded g j seen s) (doneRecord j s r) a ↔ DeckIn s r a := by
    rw [← mem_deckAreas_iff, ← mem_deckAreas_iff, (doneRecord_touching j s).deckAreas]
    rfl
  constructor
  · intro free r mem
    obtain ⟨k, mem⟩ := (mem_pool_iff s r).1 mem
    refine mt (deck r).2 (free _ ((mem_pool_iff _ _).2 ⟨k, ?_⟩))
    rw [jobEnded_queue]
    exact List.mem_map_of_mem mem
  · intro free r' mem
    obtain ⟨k, mem⟩ := (mem_pool_iff _ r').1 mem
    rw [jobEnded_queue] at mem
    obtain ⟨r, old, rfl⟩ := List.mem_map.1 mem
    exact mt (deck r).1 (free r ((mem_pool_iff s r).2 ⟨k, old⟩))

theorem leadWork_iff (s : State) (a : AreaNo) :
    (cranes.any fun k => (leading s k).any fun r => decide (a ∈ deckAreas s r)) = true ↔ LeadWork s a := by
  simp [cranes, leading, LeadWork, mem_deckAreas_iff]

theorem unlashDue_iff (s : State) (a : AreaNo) :
    unlashDue s a = true ↔ (s.areas[a]).deck = .lashed ∧ LeadWork s a := by
  rw [unlashDue, Bool.and_eq_true, decide_eq_true_eq, leadWork_iff]

theorem leadWork_jobEnded (g : GangNo) (j : Job) (seen : Bool) (s : State) :
    LeadWork (jobEnded g j seen s) a ↔ LeadWork s a := by
  have deck (r : MoveRecord) : DeckIn (jobEnded g j seen s) (doneRecord j s r) a ↔ DeckIn s r a := by
    rw [← mem_deckAreas_iff, ← mem_deckAreas_iff, (doneRecord_touching j s).deckAreas]
    rfl
  refine exists_congr fun k => ?_
  rw [jobEnded_queue, ← List.map_take]
  constructor
  · rintro ⟨r', mem, work⟩
    obtain ⟨r, old, rfl⟩ := List.mem_map.1 mem
    exact ⟨r, old, (deck r).1 work⟩
  · rintro ⟨r, mem, work⟩
    exact ⟨_, List.mem_map_of_mem mem, (deck r).2 work⟩

theorem revalued_jobEnded (g : GangNo) (j : Job) (seen : Bool) (s : State) :
    Revalued j.area s (jobEnded g j seen s) :=
  revalued_of_touching (doneRecord_touching j s) (jobEnded_queue g j seen s) (x := doneArea j s) rfl rfl
    fun _ idle point => doneRecord_state idle point

theorem deckWritten_get (d : Deck) (s : State) (b : AreaNo) : (deckWritten a d s).areas[b] =
    if b = a then { s.areas[a] with deck := d } else s.areas[b] := by
  rw [show (deckWritten a d s).areas = s.areas.set a { s.areas[a] with deck := d } from rfl, Vector.get_set]

/-- The records of the area as the end of job `j` and then a job queued for it leave them. -/
theorem revalued_queueJob_jobEnded (g : GangNo) (j : Job) (seen : Bool) (k : JobKind) (c : AreaCause) (s : State) :
    Revalued j.area s (queueJob j.area k c (jobEnded g j seen s)) := by
  have shut : ((deckWritten j.area k.waiting (jobEnded g j seen s)).areas[j.area]).deck ≠ .opened := by
    rw [deckWritten_get, if_pos rfl]
    exact waiting_shut k
  have done := doneRecord_touching j s
  have next : Touching s j.area (anew (deckWritten j.area k.waiting (jobEnded g j seen s))
      (deckAreas (jobEnded g j seen s)) j.area) := anew_touching _ fun _ => mem_pointAreas_of_deckAreas (s := s)
  rw [queueJob_eq]
  refine revalued_of_touching (x := deckWritten j.area k.waiting (jobEnded g j seen s)) (done.comp next) (fun i => ?_) rfl
    rfl fun r idle point => ?_
  · rw [Vector.ofFn_get, jobEnded_queue, List.map_map]
  · rw [Function.comp]
    by_cases deck : j.area ∈ deckAreas s r
    · have deck' : j.area ∈ deckAreas (jobEnded g j seen s) (doneRecord j s r) := by
        rw [done.deckAreas]
        exact deck
      rw [anew_of_concerned ((done.busy r).trans idle) deck',
        evaluateRecord_of_shut (s := deckWritten j.area k.waiting (jobEnded g j seen s)) deck' shut,
        eligible_of_shut (s := deckWritten j.area k.waiting (jobEnded g j seen s)) deck shut]
      rfl
    · have other (b : AreaNo) (mem : b ∈ deckAreas s r) : b ≠ j.area := fun same => deck (same ▸ mem)
      have spared : j.area ∉ deckAreas (jobEnded g j seen s) (doneRecord j s r) := by
        rw [done.deckAreas]
        exact deck
      have same : eligible (deckWritten j.area k.waiting (jobEnded g j seen s)) r = eligible (doneArea j s) r := by
        refine eligible_eq_of_areas rfl (fun b mem => ?_) fun b _ => ?_
        · rw [deckWritten_get, if_neg (other b mem)]
          rfl
        · rw [deckWritten_get]
          split
          · next here =>
            subst here
            rfl
          · rfl
      rw [anew_of_spared (.inr spared), doneRecord_state idle point, same]

/-! ### An event of a gang's list (R109, R110) -/

/-- Gang `g` with the serial of an event taken, and the reports `gap` offered before the event's own. -/
def eventTaken (g : GangNo) (x : Byte) (gap : List Items) (s : State) : State :=
  { s with gangs := s.gangs.set g { s.gangs[g] with serial := some x }, reports := (offered gap s).reports }

theorem eventTaken_get (g : GangNo) (x : Byte) (gap : List Items) (s : State) :
    (eventTaken g x gap s).gangs[g] = { s.gangs[g] with serial := some x } := by
  rw [show (eventTaken g x gap s).gangs = s.gangs.set g { s.gangs[g] with serial := some x } from rfl, Vector.get_set,
    if_pos rfl]

/-- An event that is no duplicate is taken, after a SERIAL_GAP report where its serial is not the successor. -/
theorem gangEvent_of_fresh {x : GangEventItem} {gap : List Items} (fresh : Fresh (s.gangs[g]).serial x.serial)
    (first : (s.gangs[g]).serial = none → gap = [])
    (later : ∀ l, (s.gangs[g]).serial = some l →
      gap = if x.serial = l + 1 then [] else [.gang g (.serialGap (l + 1) x.serial)]) :
    gangEvent g s x = takeGangEvent g x (eventTaken g x.serial gap s) := by
  unfold gangEvent
  cases last : (s.gangs[g]).serial with
  | none =>
    rw [first last]
    rfl
  | some l =>
    obtain ⟨ne, near⟩ := fresh l last
    rw [later l last]
    by_cases next : x.serial = l + 1
    · rw [if_pos next, sortSerial, if_pos]
      · rfl
      · rw [next]
        bv_omega
    · rw [if_neg next, sortSerial, if_neg (by bv_omega), if_neg (by bv_omega)]
      simp only
      rw [report_of_same (s := s)]
      · rfl
      all_goals rfl

theorem takeGangEvent_done {x : GangEventItem} {seen : Bool}
    (state : (s.gangs[g]).state = if seen then .working j else .sent j) (area : x.area = j.area) (done : x.event = .done) :
    takeGangEvent g x s = gangDone g j seen s := by
  unfold takeGangEvent
  cases seen with
  | false =>
    rw [show (s.gangs[g]).state = .sent j from state, done]
    exact if_pos area
  | true =>
    rw [show (s.gangs[g]).state = .working j from state, done]
    exact if_pos area

/-- What a DONE makes of the gang, the area, the jobs and the reports, where no next job is queued. -/
theorem jobEnded_eventTaken (x : Byte) (gap : List Items) (seen : Bool) (s : State) :
    jobEnded g j seen (eventTaken g x gap s) = { s with
      gangs := s.gangs.set g ⟨.idle, some x, .clear⟩
      areas := s.areas.set j.area ⟨j.kind.ended, (s.areas[j.area]).lashRequired, none⟩
      jobs := s.jobs
      queues := (jobEnded g j seen (eventTaken g x gap s)).queues
      reports := (offered (gap ++ [.area j.area (s.areas[j.area]).deck j.kind.ended .done, .gang g (.done j seen)] ++ [])
        s).reports } := by
  have told := offered_reports_congr (s := offered gap s) (t := eventTaken g x gap s)
    [.area j.area (s.areas[j.area]).deck j.kind.ended .done, .gang g (.done j seen)] rfl
    (by rw [offered_state gap s]; rfl) (by rw [offered_state gap s]; rfl)
  rw [List.append_nil, offered_append, ← told]
  unfold jobEnded
  rw [eventTaken_get]
  simp only [eventTaken, Vector.set_set]
  rfl

/-- What it makes of them where the area's next job is queued. -/
theorem queueJob_jobEnded_eventTaken (x : Byte) (gap : List Items) (seen : Bool) (k : JobKind) (c : AreaCause)
    (s : State) : queueJob j.area k c (jobEnded g j seen (eventTaken g x gap s)) = { s with
      gangs := s.gangs.set g ⟨.idle, some x, .clear⟩
      areas := s.areas.set j.area ⟨k.waiting, (s.areas[j.area]).lashRequired, none⟩
      jobs := s.jobs ++ [⟨j.area, k⟩]
      queues := (queueJob j.area k c (jobEnded g j seen (eventTaken g x gap s))).queues
      reports := (offered (gap ++ [.area j.area (s.areas[j.area]).deck j.kind.ended .done, .gang g (.done j seen)] ++
        [.area j.area j.kind.ended k.waiting c]) s).reports } := by
  have ended := jobEnded_eventTaken (g := g) (j := j) x gap seen s
  have told := report_reports_congr (.area j.area j.kind.ended k.waiting c) (s := offered (gap ++ [.area j.area
    (s.areas[j.area]).deck j.kind.ended .done, .gang g (.done j seen)] ++ []) s)
    (t := jobEnded g j seen (eventTaken g x gap s)) (by rw [ended]) (by rw [offered_state]; rfl) (by rw [offered_state]; rfl)
  rw [List.append_nil] at told
  rw [queueJob_eq, jobEnded_area, offered_append, offered_cons, offered_nil, ← told]
  unfold deckWritten
  rw [jobEnded_area]
  unfold jobEnded doneArea areaWritten
  rw [eventTaken_get]
  simp only [eventTaken, Vector.set_set]

/-! ### The signed-on indication (R111) -/

theorem revalued_jobBack (m : GangMark) (r : GangReport) (s : State) : Revalued j.area s (jobBack g m r j s) :=
  revalued_of_anew (x := areaWritten j.area ⟨j.kind.waiting, (s.areas[j.area]).lashRequired, none⟩ s)
    (fun k => Vector.ofFn_get ..) rfl rfl

theorem takeSignedOn_of_job (job : (s.gangs[g]).state = .sent j ∨ (s.gangs[g]).state = .working j) :
    takeSignedOn g false s = jobBack g .clear (.signedOff (some j)) j s := by
  unfold takeSignedOn
  rcases job with job | job
  all_goals
    rw [job]
    exact gangLeaves_of_job (by rw [job]; rfl) _ _

theorem takeSignedOn_of_present (present : (s.gangs[g]).state ≠ .off) : takeSignedOn g true s = s := by
  unfold takeSignedOn
  cases state : (s.gangs[g]).state with
  | off => exact absurd state present
  | idle | sent j | working j => rfl

theorem waiting_eq (k : JobKind) : k.waiting = if k = .unlash then Deck.unlashWait else .lashWait := by cases k <;> rfl

/-! ### The reply (R109) -/

theorem gangFollow_of_owed {s0 : State} (owed : ((s0.gangs[g]).state = .off ∧ (s.gangs[g]).state = .idle) ∨
    ((s0.gangs[g]).state.job.isSome ∧ (s.gangs[g]).state.job = none)) :
    gangFollow g s0 s = dispatchPass (tellRelease s0 s) := if_pos (by simpa [passOwed] using owed)

theorem gangFollow_of_not_owed {s0 : State} (free : ¬(((s0.gangs[g]).state = .off ∧ (s.gangs[g]).state = .idle) ∨
    ((s0.gangs[g]).state.job.isSome ∧ (s.gangs[g]).state.job = none))) : gangFollow g s0 s = s :=
  if_neg (by simpa [passOwed] using free)

/-- What follows a reply leaves a gang that is OFF. -/
theorem gangFollow_off {s0 : State} (off : (s.gangs[g]).state = .off) : (gangFollow g s0 s).gangs[g] = s.gangs[g] := by
  unfold gangFollow
  split
  · refine ((QReach.workFrame ((tellRelease_quiet ..).trans (dispatchPass_quiet _))).gangs g).busy ?_
    rw [off]
    decide
  · rfl

end Sys2Proof.Machine


/-! PROOFS. A gang's reply, statement by statement. -/

namespace Sys2Proof.Machine

variable {s t : State} {g : GangNo} {j : Job}

theorem gangDone_gang (g : GangNo) (j : Job) (seen : Bool) (s : State) :
    (gangDone g j seen s).gangs[g] = ⟨.idle, (s.gangs[g]).serial, .clear⟩ := by
  have ended : (jobEnded g j seen s).gangs[g] = ⟨.idle, (s.gangs[g]).serial, .clear⟩ := by
    rw [show (jobEnded g j seen s).gangs = s.gangs.set g ⟨.idle, (s.gangs[g]).serial, .clear⟩ from rfl, Vector.get_set,
      if_pos rfl]
  have queued (k : JobKind) (c : AreaCause) :
      (queueJob j.area k c (jobEnded g j seen s)).gangs[g] = (jobEnded g j seen s).gangs[g] := by
    rw [queueJob_eq]
    rfl
  cases kind : j.kind with
  | unlash =>
    rw [gangDone_of_unlash kind]
    split
    · rw [queued, ended]
    · exact ended
  | lash =>
    rw [gangDone_of_lash kind]
    split
    · rw [queued, ended]
    · exact ended

/-- A DONE that is taken, with its gap, ends the job. -/
theorem gangEvent_done {x : GangEventItem} {seen : Bool} {gap : List Items}
    (fresh : Fresh (s.gangs[g]).serial x.serial)
    (first : (s.gangs[g]).serial = none → gap = [])
    (later : ∀ l, (s.gangs[g]).serial = some l →
      gap = if x.serial = l + 1 then [] else [.gang g (.serialGap (l + 1) x.serial)])
    (state : (s.gangs[g]).state = if seen then .working j else .sent j) (area : x.area = j.area) (done : x.event = .done) :
    gangEvent g s x = gangDone g j seen (eventTaken g x.serial gap s) := by
  rw [gangEvent_of_fresh fresh first later]
  exact takeGangEvent_done (by rw [eventTaken_get]; exact state) area done

theorem lashDue_jobEnded_iff (kind : j.kind = .unlash) (seen : Bool) (x : Byte) (gap : List Items) (s : State) :
    lashDue (jobEnded g j seen (eventTaken g x gap s)) j.area = true ↔
      (s.areas[j.area]).lashRequired = true ∧ NoDeckWork s j.area := by
  rw [lashDue_iff, jobEnded_area, noDeckWork_jobEnded, kind]
  exact and_iff_right rfl

theorem unlashDue_jobEnded_iff (kind : j.kind = .lash) (seen : Bool) (x : Byte) (gap : List Items) (s : State) :
    unlashDue (jobEnded g j seen (eventTaken g x gap s)) j.area = true ↔ LeadWork s j.area := by
  rw [unlashDue_iff, jobEnded_area, leadWork_jobEnded, kind]
  exact and_iff_right rfl

/-- Settles O49: a DONE through `gangDone`, the indication through `takeSignedOn`, and the reply through `gangFollow`. -/
theorem gangSignsOnAndOff : Obligations.GangSignsOnAndOff := by
  refine ⟨fun s g x j seen fresh state area done => ?_, fun s g => ?_, fun s g body => ⟨fun malformed => ?_, fun r read => ?_⟩⟩
  · intro gap t a was leaves lash
    have taken : t = gangDone g j seen (eventTaken g x.serial gap s) :=
      gangEvent_done fresh (fun first => by simp only [gap, first]) (fun l last => by simp only [gap, last]) state area done
    have ended (left : t = jobEnded g j seen (eventTaken g x.serial gap s)) :
        leaves j.kind.ended j.kind.ended s.jobs [] := by
      refine ⟨?_, left ▸ revalued_jobEnded g j seen (eventTaken g x.serial gap s)⟩
      rw [left]
      exact jobEnded_eventTaken x.serial gap seen s
    have queued (k : JobKind) (c : AreaCause)
        (left : t = queueJob j.area k c (jobEnded g j seen (eventTaken g x.serial gap s))) :
        leaves j.kind.ended k.waiting (s.jobs ++ [⟨a, k⟩]) [.area a j.kind.ended k.waiting c] := by
      refine ⟨?_, left ▸ revalued_queueJob_jobEnded g j seen k c (eventTaken g x.serial gap s)⟩
      rw [left]
      exact queueJob_jobEnded_eventTaken x.serial gap seen k c s
    refine ⟨fun kind spared => ?_, fun kind due => ?_, fun kind spared => ?_, fun kind due => ?_⟩
    · have step := ended (by rw [taken, gangDone_of_unlash kind, if_neg (mt (lashDue_jobEnded_iff kind ..).1 spared)])
      rwa [kind] at step
    · have step := queued .lash .lashQueued
        (by rw [taken, gangDone_of_unlash kind, if_pos ((lashDue_jobEnded_iff kind ..).2 due)])
      rwa [kind] at step
    · have step := ended (by rw [taken, gangDone_of_lash kind, if_neg (mt (unlashDue_jobEnded_iff kind ..).1 spared)])
      rwa [kind] at step
    · have step := queued .unlash .unlashQueued
        (by rw [taken, gangDone_of_lash kind, if_pos ((unlashDue_jobEnded_iff kind ..).2 due)])
      rwa [kind] at step
  · intro x off
    refine ⟨fun out => ?_, fun idle => ?_, fun j job => ⟨?_, ?_⟩, fun out => ?_, takeSignedOn_of_present⟩
    · simp only [off, takeSignedOn, show (s.gangs[g]).state = .off from out]
      rfl
    · simp only [off, takeSignedOn, show (s.gangs[g]).state = .idle from idle]
      rfl
    · rw [← waiting_eq, show off false = _ from takeSignedOn_of_job job]
      rfl
    · rw [show off false = _ from takeSignedOn_of_job job]
      exact revalued_jobBack _ _ s
    · simp only [off, takeSignedOn, show (s.gangs[g]).state = .off from out]
  · unfold gangStatus
    rw [malformed]
  · have status : gangStatus g body s = gangFollow g s (takeSignedOn g r.signedOn (r.events.foldl (gangEvent g) s)) := by
      unfold gangStatus
      rw [read]
    rw [status]
    refine ⟨gangFollow_of_owed, gangFollow_of_not_owed, fun x events out fresh ⟨j, job, area⟩ done => ?_⟩
    obtain ⟨seen, state⟩ : ∃ seen : Bool, (s.gangs[g]).state = if seen then .working j else .sent j :=
      job.elim (fun sent => ⟨false, sent⟩) fun working => ⟨true, working⟩
    have idle : (gangEvent g s x).gangs[g] = ⟨.idle, some x.serial, .clear⟩ := by
      rw [gangEvent_done (gap := (s.gangs[g]).serial.elim [] fun l =>
        if x.serial = l + 1 then [] else [.gang g (.serialGap (l + 1) x.serial)]) fresh (fun first => by rw [first]; rfl)
        (fun l last => by rw [last]; rfl) state area done, gangDone_gang, eventTaken_get]
    have left : (takeSignedOn g r.signedOn (r.events.foldl (gangEvent g) s)).gangs[g] = ⟨.off, some x.serial, .clear⟩ := by
      rw [events, out, List.foldl_cons, List.foldl_nil]
      unfold takeSignedOn
      rw [idle]
      simp only [report_gangs, modGang_same, idle]
    rw [gangFollow_off (by rw [left]), left]

end Sys2Proof.Machine


/-! PROOFS. The LOAD telegrams of several rows (R175). -/

namespace Sys2Proof.Machine

variable {s : State} {t : Telegram}

/-! ### A row alone -/

theorem toPart_aloneRow {kind : Byte} (h : ToPart s t kind) (row : List Byte) :
    ToPart (aloneRow s t row) { t with body := row } kind where
  awake := h.awake
  placed := h.placed
  head := rfl
  mark := h.mark
  kind := h.kind

theorem answeredUplink_result {u : Uplink} {x y : Result}
    (same : answeredUplink u t x [] none = answeredUplink u t y [] none) : x = y := by
  have buffer := congrArg Uplink.buffer same
  have waiting := congrArg Uplink.waiting same
  simp only [answeredUplink] at buffer waiting
  cases full : u.buffer with
  | none =>
    rw [full] at buffer
    simpa using buffer
  | some r =>
    rw [full] at waiting
    simpa using waiting

namespace LoadCommand

variable {c : Instr} {kind : Byte} {n : Nat} {test : RowTest} {write : List Byte → State → State}
  {after : State → State → State}

/-- A LOAD of one row is refused exactly by the test of the row. -/
theorem rowRefused_iff (L : LoadCommand c kind n test write after) (h : ToPart s t kind) {row : List Byte}
    (len : row.length = n + 1) {x : Result} : RowRefused c s t row x ↔ test s [row] row = some x := by
  have alone := toPart_aloneRow h row
  have tests : test (aloneRow s t row) = test s := L.test_free _ s
  constructor
  · rintro ⟨refuses, carried⟩
    cases result : test s [row] row with
    | none =>
      have passed := L.row_passing alone len ((congrFun (congrFun tests _) _).trans result)
      rw [carried] at passed
      exact absurd (answeredUplink_result (congrArg State.uplink (Host.Outcome.next.inj passed))) refuses
    | some y =>
      have failed := L.row_failing alone len ((congrFun (congrFun tests _) _).trans result)
      rw [carried] at failed
      rw [answeredUplink_result (congrArg State.uplink (Host.Outcome.next.inj failed))]
  · intro result
    refine ⟨fun accepted => L.test_refuses s [row] row (accepted ▸ result), ?_⟩
    exact L.row_failing alone len ((congrFun (congrFun tests _) _).trans result)

theorem row_passes_iff (L : LoadCommand c kind n test write after) (h : ToPart s t kind) {row : List Byte}
    (len : row.length = n + 1) : (∀ z, ¬RowRefused c s t row z) ↔ test s [row] row = none := by
  rw [Option.eq_none_iff_forall_ne_some]
  exact forall_congr' fun z => not_congr (L.rowRefused_iff h len)

end LoadCommand

/-! ### The whole telegram -/

/-- The indices of rows are told apart by their first bytes. -/
theorem nodup_cells {n : Nat} {rows : List (List Byte)} (len : ∀ r ∈ rows, r.length = n + 1)
    (once : (rows.map (·.head?)).Nodup) : (rows.map fun r => cell r 0).Nodup := by
  have whole := once.of_map
  refine (List.nodup_map_iff_inj_on whole).2 fun x hx y hy same => List.inj_on_of_nodup_map once hx hy ?_
  have first (r : List Byte) (mem : r ∈ rows) : r.head? = some (r.getD 0 0) := by
    cases r with
    | nil => cases len _ mem
    | cons b r => rfl
  rw [first x hx, first y hy]
  exact congrArg some (BitVec.eq_of_toNat_eq same)

/-- A body that names one index twice is no list of different rows. -/
theorem repeated_cells {n i j : Nat} {body : List Byte} (before : i < j) (inside : j * (n + 1) < body.length)
    (whole : body.length % (n + 1) = 0) (same : body[i * (n + 1)]? = body[j * (n + 1)]?) :
    ∃ rows, rowsOf n body = some rows ∧ ¬(rows.map fun r => cell r 0).Nodup := by
  have full : body ≠ [] := by
    rintro rfl
    cases inside
  refine ⟨_, rowsOf_of_whole full whole, fun once => ?_⟩
  rw [List.map_map] at once
  have few : j < body.length / (n + 1) := by
    refine Nat.lt_of_mul_lt_mul_right (a := n + 1) ?_
    rwa [Nat.div_mul_cancel (Nat.dvd_of_mod_eq_zero whole)]
  have at' (i : Nat) : ((body.drop (i * (n + 1))).take (n + 1)).getD 0 0 = (body[i * (n + 1)]?).getD 0 := by
    simp [List.getD]
  refine absurd (List.inj_on_of_nodup_map once (List.mem_range.2 (before.trans few)) (List.mem_range.2 few) ?_)
    (Nat.ne_of_lt before)
  simp only [Function.comp, cell]
  rw [at', at', same]

namespace LoadCommand

variable {c : Instr} {kind : Byte} {n : Nat} {test : RowTest} {write : List Byte → State → State}
  {after : State → State → State} {rows : List (List Byte)}

/-- The first row that fails refuses the whole telegram. -/
theorem whole_refused (L : LoadCommand c kind n test write after) (h : ToPart s t kind) (len : ∀ r ∈ rows, r.length = n + 1)
    (body : t.body = rows.flatten) (once : (rows.map (·.head?)).Nodup) {p q : List (List Byte)} {r : List Byte} {x : Result}
    (split : rows = p ++ r :: q) (before : ∀ y ∈ p, test s rows y = none) (fails : test s rows r = some x) :
    exec c s = .next (answeredOnly s t x) := by
  have filled : rows ≠ [] := by simp [split]
  refine L.failing h (body ▸ rowsOf_flatten filled len) (nodup_cells len once) ?_
  have earlier : p.findSome? (test s rows) = none := List.findSome?_eq_none_iff.2 before
  generalize test s rows = tests at earlier fails
  rw [split, List.findSome?_append, earlier, List.findSome?_cons, fails]
  rfl

/-- Where every row passes the rows are written in body order. -/
theorem whole_written (L : LoadCommand c kind n test write after) (h : ToPart s t kind) (filled : rows ≠ [])
    (len : ∀ r ∈ rows, r.length = n + 1) (body : t.body = rows.flatten) (once : (rows.map (·.head?)).Nodup)
    (passes : ∀ r ∈ rows, test s rows r = none) :
    exec c s = .next (withUplink (answeredUplink s.uplink t .accepted [] none)
      (after s (rows.foldl (fun s r => write r s) s))) :=
  L.passing h (body ▸ rowsOf_flatten filled len) (nodup_cells len once) (List.findSome?_eq_none_iff.2 passes)

/-- A table whose tests look at one row is written whole, or refused by the first row that is refused alone. -/
theorem whole (L : LoadCommand c kind n test write after) (alone : ∀ s rows r, test s rows r = test s [r] r)
    (h : ToPart s t kind) (filled : rows ≠ []) (len : ∀ r ∈ rows, r.length = n + 1) (body : t.body = rows.flatten)
    (once : (rows.map (·.head?)).Nodup) :
    (∀ p r q x, rows = p ++ r :: q → (∀ y ∈ p, ∀ z, ¬RowRefused c s t y z) → RowRefused c s t r x →
      exec c s = .next (answeredOnly s t x)) ∧
    ((∀ r ∈ rows, ∀ z, ¬RowRefused c s t r z) →
      exec c s = .next { after s (rows.foldl (fun x r => write r x) s) with
        uplink := answeredUplink s.uplink t .accepted [] none }) := by
  refine ⟨fun p r q x split before refused => ?_, fun passes => ?_⟩
  · have inside (y : List Byte) (mem : y ∈ p) : y ∈ rows := by simp [split, mem]
    refine L.whole_refused h len body once split (fun y mem => ?_) ?_
    · rw [alone]
      exact (L.row_passes_iff h (len y (inside y mem))).1 (before y mem)
    · rw [alone]
      exact (L.rowRefused_iff h (len r (by simp [split]))).1 refused
  · refine L.whole_written h filled len body once fun r mem => ?_
    rw [alone]
    exact (L.row_passes_iff h (len r mem)).1 (passes r mem)

/-- A body that is not a list of different rows is refused. -/
theorem not_rows (L : LoadCommand c kind n test write after) (h : ToPart s t kind) :
    (t.body = [] ∨ t.body.length % (n + 1) ≠ 0 → exec c s = .next (answeredOnly s t .range)) ∧
    (∀ i j, i < j → j * (n + 1) < t.body.length → t.body.length % (n + 1) = 0 →
      t.body[i * (n + 1)]? = t.body[j * (n + 1)]? → exec c s = .next (answeredOnly s t .range)) := by
  refine ⟨L.ragged h, fun i j before inside whole same => ?_⟩
  obtain ⟨rows, cut, twice⟩ := repeated_cells before inside whole same
  exact L.repeated h cut twice

end LoadCommand

/-! ### The rows of the bay map (R101) -/

/-- The row that a LOAD_BAYS row writes. -/
def bayWritten (r : List Byte) (a : AreaNo) : Option BayRow :=
  if cell r 1 = 0 then none else some ⟨cell r 1, cell16 r 2, a⟩

/-- The bay number that row `i` carries after the telegram. -/
theorem bayAfter_of_named {rows : List (List Byte)} (once : (rows.map fun r => cell r 0).Nodup) {y : List Byte}
    (mem : y ∈ rows) {i : Fin 64} (row : cell y 0 = i.val) : bayAfter s rows i = cell y 1 := by
  unfold bayAfter
  have found : rows.find? (fun r => decide (cell r 0 = i.val)) = some y := by
    cases find : rows.find? (fun r => decide (cell r 0 = i.val)) with
    | none => exact absurd (decide_eq_true row) (List.find?_eq_none.1 find y mem)
    | some z =>
      have named : cell z 0 = i.val := of_decide_eq_true (List.find?_some (p := fun r => decide (cell r 0 = i.val)) find)
      exact congrArg some
        (List.inj_on_of_nodup_map once (List.mem_of_find?_eq_some find) mem (named.trans row.symm))
  rw [found]

theorem bayAfter_of_unnamed {rows : List (List Byte)} {i : Fin 64} (unnamed : ∀ y ∈ rows, cell y 0 ≠ i.val) :
    bayAfter s rows i = ((s.bays[i]).map (·.bay)).getD 0 := by
  unfold bayAfter
  rw [List.find?_eq_none.2 fun y mem => by simpa using unnamed y mem]

theorem bayTwice_iff {rows : List (List Byte)} (once : (rows.map fun r => cell r 0).Nodup) {r : List Byte} :
    bayTwice s rows r = true ↔ cell r 1 ≠ 0 ∧
      ((∃ y ∈ rows, cell y 0 < 64 ∧ cell y 0 ≠ cell r 0 ∧ cell y 1 = cell r 1) ∨
        ∃ (i : Fin 64) (x : BayRow), s.bays[i] = some x ∧ x.bay = cell r 1 ∧ ∀ y ∈ r :: rows, cell y 0 ≠ i.val) := by
  unfold bayTwice
  simp only [Bool.and_eq_true, decide_eq_true_eq, List.any_eq_true]
  refine and_congr_right fun nonzero => ⟨?_, ?_⟩
  · rintro ⟨i, -, other, same⟩
    by_cases named : ∃ y ∈ rows, cell y 0 = i.val
    · obtain ⟨y, old, row⟩ := named
      rw [bayAfter_of_named once old row] at same
      exact .inl ⟨y, old, row ▸ i.isLt, row ▸ other, same⟩
    · have unnamed : ∀ y ∈ rows, cell y 0 ≠ i.val := fun y old row => named ⟨y, old, row⟩
      rw [bayAfter_of_unnamed unnamed] at same
      cases entry : s.bays[i] with
      | none =>
        rw [entry] at same
        exact absurd same.symm nonzero
      | some x =>
        rw [entry] at same
        exact .inr ⟨i, x, entry, same, List.forall_mem_cons.2 ⟨other.symm, unnamed⟩⟩
  · rintro (⟨y, old, small, other, same⟩ | ⟨i, x, entry, same, unnamed⟩)
    · exact ⟨⟨cell y 0, small⟩, List.mem_finRange _, other, (bayAfter_of_named once old rfl).trans same⟩
    · obtain ⟨other, unnamed⟩ := List.forall_mem_cons.1 unnamed
      refine ⟨i, List.mem_finRange _, other.symm, ?_⟩
      rw [bayAfter_of_unnamed unnamed, entry]
      exact same

/-- Rows that pass their tests are all written, each where it names its row of the map. -/
theorem foldl_writeBay (rows : List (List Byte)) (small : ∀ r ∈ rows, cell r 0 < 64 ∧ cell r 4 < 32)
    (once : (rows.map fun r => cell r 0).Nodup) : ∀ s : State,
    ∃ v, rows.foldl (fun x r => writeBay r x) s = { s with bays := v } ∧
      ∀ i : Fin 64, ((∀ r ∈ rows, cell r 0 ≠ i.val) → v[i] = s.bays[i]) ∧
        ∀ r ∈ rows, ∀ a : AreaNo, cell r 0 = i.val → cell r 4 = a.val → v[i] = bayWritten r a := by
  induction rows with
  | nil => exact fun s => ⟨s.bays, rfl, fun i => ⟨fun _ => rfl, fun r mem => by cases mem⟩⟩
  | cons r rows ih =>
    intro s
    obtain ⟨fits, small⟩ := List.forall_mem_cons.1 small
    obtain ⟨new, once⟩ := List.nodup_cons.1 once
    obtain ⟨v, left, rest⟩ := ih small once (writeBay r s)
    have written : writeBay r s = setBay ⟨cell r 0, fits.1⟩ (bayWritten r ⟨cell r 4, fits.2⟩) s := dif_pos fits
    refine ⟨v, ?_, fun i => ⟨fun unnamed => ?_, fun y mem a row area => ?_⟩⟩
    · rw [List.foldl_cons, left, written]
      rfl
    · obtain ⟨other, unnamed⟩ := List.forall_mem_cons.1 unnamed
      rw [(rest i).1 unnamed, written, setBay_get, if_neg fun same => other (congrArg Fin.val same).symm]
    · rcases List.mem_cons.1 mem with rfl | old
      · have unnamed : ∀ z ∈ rows, cell z 0 ≠ i.val := fun z old same =>
          new (List.mem_map.2 ⟨z, old, same.trans row.symm⟩)
        rw [(rest i).1 unnamed, written, setBay_get, if_pos (Fin.ext row.symm)]
        exact congrArg (bayWritten y) (Fin.ext area)
      · exact (rest i).2 y old a row area

/-- A row of a LOAD_BAYS outside its limits, or with a bay number that another row carries (R101). -/
def BayBad (s : State) (rows : List (List Byte)) (r : List Byte) : Prop :=
  64 ≤ cell r 0 ∨ 120 < cell r 1 ∨ par s Config.QUAY_LEN < cell16 r 2 ∨ 32 ≤ cell r 4 ∨ bayTwice s rows r = true

/-- A row of a LOAD_BAYS whose row of the map has a bay that a move of the pool names. -/
def BayInUse (s : State) (r : List Byte) : Prop :=
  ∃ (i : Fin 64) (x : BayRow), cell r 0 = i.val ∧ s.bays[i] = some x ∧
    ∃ m ∈ pool s, Touches m x.bay .deck ∨ Touches m x.bay .hold

theorem bayNamed_iff_touches (s : State) (n : Nat) :
    bayNamed s n = true ↔ ∃ m ∈ pool s, Touches m n .deck ∨ Touches m n .hold := by
  rw [bayNamed_iff]
  refine exists_congr fun m => and_congr_right fun _ => ⟨?_, ?_⟩
  · rintro ⟨⟨_, z⟩, point, rfl⟩
    cases z with
    | deck => exact .inl ((mem_points_iff m _ .deck).1 point)
    | hold => exact .inr ((mem_points_iff m _ .hold).1 point)
  · rintro (deck | hold)
    · exact ⟨_, (mem_points_iff m n .deck).2 deck, rfl⟩
    · exact ⟨_, (mem_points_iff m n .hold).2 hold, rfl⟩

theorem bayTest_of_bad {rows : List (List Byte)} {r : List Byte} (bad : BayBad s rows r) :
    bayTest s rows r = some .range := by
  unfold bayTest
  split
  · next small =>
    refine if_pos ?_
    rcases bad with high | bay | place | area | twice
    · omega
    · exact .inl bay
    · exact .inr (.inr (.inl place))
    · exact .inr (.inr (.inr area))
    · exact .inr (.inl twice)
  · rfl

theorem bayTest_of_not_bad {rows : List (List Byte)} {r : List Byte} (fine : ¬BayBad s rows r) (small : cell r 0 < 64) :
    bayTest s rows r = if (s.bays[(⟨cell r 0, small⟩ : Fin 64)]).any fun x => bayNamed s x.bay then some .collision
      else none := by
  unfold bayTest
  rw [dif_pos small, if_neg]
  rintro (bay | twice | place | area)
  · exact fine (.inr (.inl bay))
  · exact fine (.inr (.inr (.inr (.inr twice))))
  · exact fine (.inr (.inr (.inl place)))
  · exact fine (.inr (.inr (.inr (.inl area))))

theorem bayInUse_iff {r : List Byte} (small : cell r 0 < 64) : BayInUse s r ↔
    ((s.bays[(⟨cell r 0, small⟩ : Fin 64)]).any fun x => bayNamed s x.bay) = true := by
  rw [Option.any_eq_true]
  constructor
  · rintro ⟨i, x, row, entry, named⟩
    obtain rfl : i = ⟨cell r 0, small⟩ := Fin.ext row.symm
    exact ⟨x, entry, (bayNamed_iff_touches s x.bay).2 named⟩
  · rintro ⟨x, entry, named⟩
    exact ⟨_, x, rfl, entry, (bayNamed_iff_touches s x.bay).1 named⟩

theorem BayBad.small {rows : List (List Byte)} {r : List Byte} (fine : ¬BayBad s rows r) : cell r 0 < 64 :=
  Nat.not_le.1 fun high => fine (.inl high)

theorem bayTest_of_inUse {rows : List (List Byte)} {r : List Byte} (fine : ¬BayBad s rows r) (used : BayInUse s r) :
    bayTest s rows r = some .collision := by
  rw [bayTest_of_not_bad fine (BayBad.small fine), if_pos ((bayInUse_iff _).1 used)]

theorem bayTest_of_free {rows : List (List Byte)} {r : List Byte} (fine : ¬BayBad s rows r) (free : ¬BayInUse s r) :
    bayTest s rows r = none := by
  rw [bayTest_of_not_bad fine (BayBad.small fine), if_neg (mt (bayInUse_iff _).2 free)]

/-- Settles O43: each table through its `LoadCommand`, the bay map with its test across rows, and the poll plan. -/
theorem loadTelegramsAreWhole : Obligations.LoadTelegramsAreWhole := by
  intro s t up whole
  refine ⟨fun c kind n listed h => ?_, fun h rows filled len body once => ?_, fun h rows filled len body once => ?_,
    fun h rows filled len body once => ?_, fun h rows filled len body once => ?_, fun h => ⟨fun long => ?_, fun short => ?_⟩⟩
  · simp only [List.mem_cons, Prod.mk.injEq, List.not_mem_nil, or_false] at listed
    obtain ⟨rfl, rfl, rfl⟩ | ⟨rfl, rfl, rfl⟩ | ⟨rfl, rfl, rfl⟩ | ⟨rfl, rfl, rfl⟩ := listed
    · exact loadRoster_command.not_rows h
    · exact loadLanes_command.not_rows h
    · exact loadBays_command.not_rows h
    · exact loadAreas_command.not_rows h
  · exact loadRoster_command.whole (fun _ _ _ => rfl) h filled len body once
  · exact loadLanes_command.whole (fun _ _ _ => rfl) h filled len body once
  · exact loadAreas_command.whole (fun _ _ _ => rfl) h filled len body once
  · intro at' place twice bad named
    have cells := nodup_cells len once
    have bad_iff (r : List Byte) : bad r ↔ BayBad s rows r := by
      unfold BayBad
      rw [bayTwice_iff cells]
      exact Iff.rfl
    refine ⟨fun p r q split before => ⟨fun fails => ?_, fun fine used => ?_⟩, fun passes => ?_⟩
    · refine loadBays_command.whole_refused h len body once split (fun y mem => ?_) (bayTest_of_bad ((bad_iff r).1 fails))
      exact bayTest_of_free (mt (bad_iff y).2 (before y mem).1) (before y mem).2
    · refine loadBays_command.whole_refused h len body once split (fun y mem => ?_)
        (bayTest_of_inUse (mt (bad_iff r).2 fine) used)
      exact bayTest_of_free (mt (bad_iff y).2 (before y mem).1) (before y mem).2
    · have small (r : List Byte) (mem : r ∈ rows) : cell r 0 < 64 ∧ cell r 4 < 32 := by
        have fine := mt (bad_iff r).2 (passes r mem).1
        exact ⟨BayBad.small fine, Nat.not_le.1 fun high => fine (.inr (.inr (.inr (.inl high))))⟩
      obtain ⟨v, left, rest⟩ := foldl_writeBay rows small cells s
      refine ⟨v, ?_, rest⟩
      rw [loadBays_command.whole_written h filled len body once fun r mem =>
        bayTest_of_free (mt (bad_iff r).2 (passes r mem).1) (passes r mem).2, left]
      rfl
  · exact congrArg Host.Outcome.next (management_refused h (by decide) (if_pos long))
  · exact congrArg Host.Outcome.next (management_done h (by decide)
      (f := modField fun f => { f with plan := t.body, nextSlot := 0 }) (fun _ _ => rfl) (if_neg (Nat.not_lt.2 short)))

end Sys2Proof.Machine


/-! PROOFS. LOAD_ROSTER of one row (R25, R83, R131). -/

namespace Sys2Proof.Machine

variable {s : State} {t : Telegram} {k : CraneNo}

/-! ### The test of the berth state (R131) -/

/-- The berth state that a test leaves. -/
def testedState (s : State) : BerthState := if s.berth.state = .running then .running else holdState s

/-- The state with the berth state that a test leaves. -/
def berthTested (s : State) : State := { s with berth := { s.berth with state := testedState s } }

theorem berthTested_of_same (same : testedState s = s.berth.state) : berthTested s = s := by
  unfold berthTested
  rw [same]

theorem testBerth_of_same (who : Option CraneNo) (same : testedState s = s.berth.state) : testBerth who s = s := by
  unfold testedState at same
  unfold testBerth
  cases state : s.berth.state with
  | running => rfl
  | holding | held =>
    rw [state, if_neg (by decide)] at same
    rw [same]

theorem testBerth_of_held (who : Option CraneNo) (holding : s.berth.state = .holding) (held : holdState s = .held) :
    testBerth who s = { berthTested s with reports := (report (.berth (.toHeld s.berth.causes)) s).reports } := by
  have tested : testedState s = .held := by rw [testedState, holding, held]; rfl
  unfold testBerth berthTested
  rw [holding, held, tested]
  exact report_of_same _ rfl rfl rfl

theorem testBerth_of_holding (who : Option CraneNo) (held : s.berth.state = .held) (holding : holdState s = .holding) :
    testBerth who s = { berthTested s with reports := (report (.berth (.toHolding s.berth.causes who)) s).reports } := by
  have tested : testedState s = .holding := by rw [testedState, holding, held]; rfl
  unfold testBerth berthTested
  rw [holding, held, tested]
  exact report_of_same _ rfl rfl rfl

/-- A test of the berth state writes that state, and reports it where it changes. -/
theorem testBerth_eq (k : CraneNo) (s : State) : testBerth (some k) s = { berthTested s with
    reports := (offered (berthReport k s (berthTested s)) s).reports } := by
  have after : (berthTested s).berth.state = testedState s := rfl
  by_cases same : testedState s = s.berth.state
  · rw [testBerth_of_same _ same, berthReport, after, if_pos same, berthTested_of_same same]
    rfl
  · rw [berthReport, after, if_neg same]
    cases state : s.berth.state with
    | running => exact absurd (if_pos state) (state ▸ same)
    | holding =>
      cases now : holdState s with
      | running => exact absurd now (holdState_held s)
      | holding => exact absurd (by rw [testedState, state, now]; rfl) same
      | held =>
        rw [testBerth_of_held _ state now, if_pos (by rw [testedState, state, now]; rfl)]
        rfl
    | held =>
      cases now : holdState s with
      | running => exact absurd now (holdState_held s)
      | held => exact absurd (by rw [testedState, state, now]; rfl) same
      | holding =>
        rw [testBerth_of_holding _ state now, if_neg (by rw [testedState, state, now]; decide)]
        rfl

/-! ### The home lanes of a row (R83) -/

/-- The lane that a number names. -/
def laneNamed (n : Nat) : Option LaneNo := if h : n < 16 then some ⟨n, h⟩ else none

theorem laneNamed_val (l : LaneNo) : laneNamed l.val = some l := dif_pos l.isLt

theorem filterMap_laneNamed (ls : List LaneNo) : (ls.map Fin.val).filterMap laneNamed = ls := by
  induction ls with
  | nil => rfl
  | cons l ls ih => rw [List.map_cons, List.filterMap_cons_some (laneNamed_val l), ih]

/-- Numbers that all name a lane are the numbers of those lanes. -/
theorem eq_map_of_filterMap_laneNamed {ns : List Nat} (all : (ns.filterMap laneNamed).length = ns.length) :
    ns = (ns.filterMap laneNamed).map Fin.val := by
  induction ns with
  | nil => rfl
  | cons n ns ih =>
    by_cases small : n < 16
    · have named : laneNamed n = some ⟨n, small⟩ := dif_pos small
      rw [List.filterMap_cons_some named] at all ⊢
      rw [List.map_cons, ← ih (by simpa using all)]
    · have unnamed : laneNamed n = none := dif_neg small
      rw [List.filterMap_cons_none unnamed, List.length_cons] at all
      have := List.length_filterMap_le laneNamed ns
      omega

/-- A roster row lists home lanes `ls` of crane `k` as R83 asks. -/
structure ListsHome (s : State) (k : CraneNo) (count : Byte) (lanes : List Byte) (ls : List LaneNo) : Prop where
  count_eq : count.toNat = ls.length
  listed : (ls.map fun l => byte l.val) = lanes.take count.toNat
  rest : (lanes.filter fun b => decide (b ≠ 0xFF)).length = count.toNat
  nodup : ls.Nodup
  home : ∀ l ∈ ls, (s.lanes[l]).use = .home k

section
variable {c e p1 p0 count b1 b2 b3 : Byte}

theorem listedLanes_eq : listedLanes [c, e, p1, p0, count, b1, b2, b3] =
    (([b1, b2, b3].map BitVec.toNat).take count.toNat).filterMap laneNamed := rfl

theorem toNat_byte_lane (l : LaneNo) : (byte l.val).toNat = l.val := by
  simp [byte]
  omega

theorem ListsHome.numbers {ls : List LaneNo} (lists : ListsHome s k count [b1, b2, b3] ls) :
    ([b1, b2, b3].map BitVec.toNat).take count.toNat = ls.map Fin.val := by
  rw [← List.map_take, ← lists.listed, List.map_map]
  exact List.map_congr_left fun l _ => toNat_byte_lane l

theorem listedLanes_of_lists {ls : List LaneNo} (lists : ListsHome s k count [b1, b2, b3] ls) :
    listedLanes [c, e, p1, p0, count, b1, b2, b3] = ls := by
  rw [listedLanes_eq, lists.numbers, filterMap_laneNamed]

theorem homeLanesValid_iff : homeLanesValid s k [c, e, p1, p0, count, b1, b2, b3] = true ↔ count.toNat ≤ 3 ∧
    ([b1, b2, b3].filter fun b => decide (b ≠ 0xFF)).length = count.toNat ∧
    (([b1, b2, b3].map BitVec.toNat).take count.toNat).Nodup ∧
    (listedLanes [c, e, p1, p0, count, b1, b2, b3]).length = (([b1, b2, b3].map BitVec.toNat).take count.toNat).length ∧
    ∀ l ∈ listedLanes [c, e, p1, p0, count, b1, b2, b3], (s.lanes[l]).use = .home k := by
  have filled : (fun n : Nat => decide (n ≠ 0xFF)) ∘ BitVec.toNat = fun b : Byte => decide (b ≠ 0xFF) := by
    funext b
    exact decide_eq_decide.2 (not_congr ⟨fun same => BitVec.eq_of_toNat_eq same, fun same => congrArg BitVec.toNat same⟩)
  have rest : ((rowLanes [c, e, p1, p0, count, b1, b2, b3]).filter fun n => decide (n ≠ 0xFF)).length =
      ([b1, b2, b3].filter fun b => decide (b ≠ 0xFF)).length := by
    rw [show rowLanes [c, e, p1, p0, count, b1, b2, b3] = [b1, b2, b3].map BitVec.toNat from rfl, List.filter_map,
      List.length_map, filled]
  unfold homeLanesValid
  rw [rest]
  simp only [Bool.and_eq_true, decide_eq_true_eq, List.all_eq_true, and_assoc]
  exact Iff.rfl

theorem homeLanesValid_iff_listed : homeLanesValid s k [c, e, p1, p0, count, b1, b2, b3] = true ↔
    ListsHome s k count [b1, b2, b3] (listedLanes [c, e, p1, p0, count, b1, b2, b3]) := by
  rw [homeLanesValid_iff]
  constructor
  · rintro ⟨few, rest, nodup, all, home⟩
    have numbers := eq_map_of_filterMap_laneNamed (listedLanes_eq (c := c) ▸ all)
    rw [← listedLanes_eq (c := c) (e := e) (p1 := p1) (p0 := p0)] at numbers
    refine ⟨?_, ?_, rest, ?_, home⟩
    · rw [all, List.length_take]
      exact (Nat.min_eq_left few).symm
    · refine List.map_injective_iff.2 (fun x y => BitVec.eq_of_toNat_eq) ?_
      rw [List.map_map, List.map_take, numbers]
      exact List.map_congr_left fun l _ => toNat_byte_lane l
    · rw [numbers] at nodup
      exact nodup.of_map
  · intro lists
    have length := congrArg List.length lists.listed
    rw [List.length_map, List.length_take, ← lists.count_eq] at length
    refine ⟨length ▸ Nat.min_le_right .., lists.rest, ?_, ?_, lists.home⟩
    · rw [lists.numbers]
      exact lists.nodup.map Fin.val_injective
    · rw [lists.numbers, List.length_map]

/-- A row is valid exactly where it lists home lanes. -/
theorem homeLanesValid_iff_exists : homeLanesValid s k [c, e, p1, p0, count, b1, b2, b3] = true ↔
    ∃ ls, ListsHome s k count [b1, b2, b3] ls := by
  rw [homeLanesValid_iff_listed (c := c) (e := e) (p1 := p1) (p0 := p0)]
  constructor
  · exact fun lists => ⟨_, lists⟩
  · rintro ⟨ls, lists⟩
    rwa [listedLanes_of_lists lists]

/-! ### The row (R175) -/

theorem rosterTest_of_high (rows : List (List Byte)) (high : 8 ≤ c.toNat) :
    rosterTest s rows [c, e, p1, p0, count, b1, b2, b3] = some .range := dif_neg (Nat.not_lt.2 high)

theorem rosterTest_of_row (rows : List (List Byte)) (row : c.toNat = k.val) :
    rosterTest s rows [c, e, p1, p0, count, b1, b2, b3] =
      if 1 < e.toNat ∨ par s Config.QUAY_LEN < of16 p1 p0 ∨
          (e.toNat = 1 ∧ !homeLanesValid s k [c, e, p1, p0, count, b1, b2, b3]) then some .range
      else if s.queues[k] ≠ [] then some .collision
      else none := by
  obtain ⟨v, small⟩ := k
  obtain rfl : c.toNat = v := row
  exact dif_pos small

theorem writeRoster_row (row : c.toNat = k.val) (s : State) :
    writeRoster [c, e, p1, p0, count, b1, b2, b3] s =
      if e.toNat = 0 then removeCrane k s
      else if inRoster s k then replaceCrane k ⟨of16 p1 p0, listedLanes [c, e, p1, p0, count, b1, b2, b3]⟩ s
      else enterCrane k ⟨of16 p1 p0, listedLanes [c, e, p1, p0, count, b1, b2, b3]⟩ s := by
  obtain ⟨v, small⟩ := k
  obtain rfl : c.toNat = v := row
  exact dif_pos small

end

end Sys2Proof.Machine


/-! PROOFS. LOAD_ROSTER of one row: a crane entered, replaced and removed (R25, R145, R153). -/

namespace Sys2Proof.Machine

variable {s : State} {t : Telegram} {k : CraneNo}

theorem foldl_report_eq_offered {α : Type} (item : α → Items) (xs : List α) : ∀ s : State,
    xs.foldl (fun s x => report (item x) s) s = offered (xs.map item) s := by
  induction xs with
  | nil => exact fun s => rfl
  | cons x xs ih => exact fun s => ih _

/-- The forward entries of a mark are dropped, each with its LINE report. -/
theorem discardForwards_eq (m : Byte) (s : State) : discardForwards m s = { s with
    field := { s.field with forward := s.field.forward.filter fun x => decide (x.mark ≠ m) }
    reports := (offered ((s.field.forward.filter fun x => decide (x.mark = m)).map fun _ => .line (.forwardDiscarded m))
      s).reports } := by
  unfold discardForwards
  rw [foldl_report_eq_offered (fun _ : Telegram => .line (.forwardDiscarded m))]
  exact offered_of_same _ rfl rfl rfl

/-- The state in which crane `k` has entered the roster, before the test of the berth state. -/
def craneEntered (k : CraneNo) (e : RosterEntry) (s : State) : State :=
  { s with
    roster := s.roster.set k (some e)
    cranes := s.cranes.set k { Crane.powerOn with mode := .inService, position := some e.parking }
    cycles := s.cycles.set k (initialCycle s.params)
    stations := s.stations.set (Station.crane k).index ⟨.unknown, 0⟩ }

theorem enterCrane_eq (k : CraneNo) (e : RosterEntry) (s : State) : enterCrane k e s =
    { berthTested (craneEntered k e s) with
      reports := (offered (berthReport k s (berthTested (craneEntered k e s))) s).reports } := by
  have entered : enterCrane k e s = testBerth (some k) (craneEntered k e s) := rfl
  rw [entered, testBerth_eq, offered_reports_congr (s := s) (t := craneEntered k e s) _ rfl rfl rfl]
  rfl

theorem replaceCrane_eq (k : CraneNo) (e : RosterEntry) (s : State) : replaceCrane k e s = { s with
    roster := s.roster.set k (some e)
    cranes := s.cranes.set k { s.cranes[k] with
      position := if stationState s (.crane k) = .unknown then some e.parking else (s.cranes[k]).position } } := rfl

/-- The state in which crane `k` has left the roster, before the test of the berth state. -/
def craneRemoved (k : CraneNo) (s : State) : State :=
  { s with
    roster := s.roster.set k none
    cranes := s.cranes.set k Crane.powerOn
    stations := s.stations.set (Station.crane k).index ⟨.unknown, 0⟩
    lanes := Vector.ofFn fun l =>
      if (s.lanes[l]).owner = some k then { s.lanes[l] with owner := none, request := none }
      else { s.lanes[l] with request := (s.lanes[l]).request.filter fun q => decide (q.crane ≠ k) }
    field := { s.field with visit := s.field.visit.filter fun v => decide (v.station ≠ .crane k) } }

theorem endVisitTo_eq (st : Station) (s : State) : endVisitTo st s =
    { s with field := { s.field with visit := s.field.visit.filter fun v => decide (v.station ≠ st) } } := by
  unfold endVisitTo
  cases visit : s.field.visit with
  | none =>
    show s = { s with field := { s.field with visit := none } }
    rw [← visit]
  | some v =>
    by_cases same : v.station = st
    · rw [if_pos (by simpa using same), Option.filter_some, if_neg (by simpa using same)]
      rfl
    · rw [if_neg (by simpa using same), Option.filter_some, if_pos (by simpa using same), ← visit]

/-- The LINE reports of the forward entries that a removal drops. -/
def forwardsDropped (k : CraneNo) (s : State) : List Items :=
  (s.field.forward.filter fun x => decide (x.mark = (Station.crane k).mark)).map fun _ =>
    .line (.forwardDiscarded (Station.crane k).mark)

theorem removeCrane_eq (present : (s.cranes[k]).mode ≠ .absent) : removeCrane k s =
    { berthTested (craneRemoved k s) with
      field := { (craneRemoved k s).field with
        forward := s.field.forward.filter fun x => decide (x.mark ≠ (Station.crane k).mark) }
      reports := (offered (berthReport k s (berthTested (craneRemoved k s)) ++ forwardsDropped k s) s).reports } := by
  have removed : removeCrane k s = discardForwards (Station.crane k).mark (testBerth (some k) (endVisitTo (.crane k)
      (dropOwnership k (forgetStation k (modCrane k (fun _ => Crane.powerOn) (setRoster k none s)))))) :=
    if_pos ((inRoster_iff s k).2 present)
  have left : endVisitTo (.crane k) (dropOwnership k (forgetStation k (modCrane k (fun _ => Crane.powerOn)
      (setRoster k none s)))) = craneRemoved k s := endVisitTo_eq _ _
  have told := offered_reports_congr (s := offered (berthReport k s (berthTested (craneRemoved k s))) s)
    (t := { berthTested (craneRemoved k s) with
      reports := (offered (berthReport k s (berthTested (craneRemoved k s))) s).reports }) (forwardsDropped k s)
    rfl (by rw [offered_state]; rfl) (by rw [offered_state]; rfl)
  rw [removed, left, testBerth_eq, discardForwards_eq, offered_append, ← told,
    offered_reports_congr (s := s) (t := craneRemoved k s) _ rfl rfl rfl]
  rfl

theorem removeCrane_of_absent (absent : (s.cranes[k]).mode = .absent) : removeCrane k s = s :=
  if_neg (mt (inRoster_iff s k).1 (not_not.2 absent))

/-- Settles O44: the tests of the row, and the crane entered, replaced or removed. -/
theorem loadRosterRow : Obligations.LoadRosterRow := by
  intro s t c e p1 p0 count b1 b2 b3 h body
  have len : t.body.length = 7 + 1 := by rw [body]; rfl
  refine ⟨fun high => ?_, ?_⟩
  · exact loadRoster_command.row_failing h len (by rw [body]; exact rosterTest_of_high _ high)
  intro k row p fits up stations
  have tests := rosterTest_of_row (s := s) (e := e) (p1 := p1) (p0 := p0) (count := count) (b1 := b1) (b2 := b2) (b3 := b3)
    [t.body] row
  rw [← body] at tests
  have fits_iff (ls : List LaneNo) : fits ls ↔ ListsHome s k count [b1, b2, b3] ls :=
    ⟨fun ⟨number, listed, rest, nodup, home⟩ => ⟨number, listed, rest, nodup, home⟩,
      fun h => ⟨h.count_eq, h.listed, h.rest, h.nodup, h.home⟩⟩
  have inside (entry : e = 0 ∨ (e = 1 ∧ ∃ ls, fits ls)) (near : p ≤ par s Config.QUAY_LEN) :
      rosterTest s [t.body] t.body = if s.queues[k] ≠ [] then some .collision else none := by
    rw [tests, if_neg]
    rintro (high | long | ⟨one, invalid⟩)
    · rcases entry with rfl | ⟨rfl, _⟩ <;> simp at high
    · exact absurd near (Nat.not_le.2 long)
    · rcases entry with rfl | ⟨_, ls, lists⟩
      · cases one
      · rw [body, homeLanesValid_iff_exists.2 ⟨ls, (fits_iff ls).1 lists⟩] at invalid
        cases invalid
  have passed (entry : e = 0 ∨ (e = 1 ∧ ∃ ls, fits ls)) (near : p ≤ par s Config.QUAY_LEN) (empty : s.queues[k] = []) :
      exec .loadRoster s = .next (withUplink up (if e.toNat = 0 then removeCrane k s
        else if inRoster s k then replaceCrane k ⟨p, listedLanes t.body⟩ s
        else enterCrane k ⟨p, listedLanes t.body⟩ s)) := by
    rw [loadRoster_command.row_passing h len ((inside entry near).trans (if_neg (not_not.2 empty))), body,
      writeRoster_row row]
  refine ⟨fun outside => ?_, fun enters noLanes => ?_, fun entry near moves => ?_, fun near empty =>
    ⟨fun leaves absent => ?_, fun ls enters lists absent => ?_, fun ls enters lists present => ?_,
      fun leaves present => ?_⟩⟩
  · refine loadRoster_command.row_failing h len (tests.trans (if_pos ?_))
    exact outside.imp_right .inl
  · refine loadRoster_command.row_failing h len (tests.trans (if_pos ?_))
    refine .inr (.inr ⟨by rw [enters]; rfl, ?_⟩)
    rw [body, Bool.not_eq_true', ← Bool.not_eq_true, homeLanesValid_iff_exists]
    exact fun ⟨ls, lists⟩ => noLanes ls ((fits_iff ls).2 lists)
  · exact loadRoster_command.row_failing h len ((inside entry near).trans (if_pos moves))
  · rw [passed (.inl leaves) near empty, if_pos (by rw [leaves]; rfl), removeCrane_of_absent absent]
    rfl
  · have listed : listedLanes t.body = ls := by rw [body, listedLanes_of_lists ((fits_iff ls).1 lists)]
    refine ⟨_, passed (.inr ⟨enters, ls, lists⟩) near empty, ?_⟩
    rw [if_neg (by rw [enters]; decide), if_neg (mt (inRoster_iff s k).1 (not_not.2 absent)), listed, enterCrane_eq]
    rfl
  · have listed : listedLanes t.body = ls := by rw [body, listedLanes_of_lists ((fits_iff ls).1 lists)]
    rw [passed (.inr ⟨enters, ls, lists⟩) near empty, if_neg (by rw [enters]; decide),
      if_pos ((inRoster_iff s k).2 present), listed, replaceCrane_eq]
    rfl
  · refine ⟨_, passed (.inl leaves) near empty, ?_⟩
    rw [if_pos (by rw [leaves]; rfl), removeCrane_eq present]
    rfl

end Sys2Proof.Machine


/-! PROOFS. RESET_COORD (R176). -/

namespace Sys2Proof.Machine

variable {s : State} {t : Telegram}

/-- The unit that answers the head telegram may have written the uplink, here to `takenUplink u`. -/
theorem awake_takeHead_from {unit : Route → Telegram → State → Option Answer} {a : Answer} {u : Uplink} (h : AtHead s t)
    (answered : unit (route s t) t (popInbound s) = some a) (kept : a.state.uplink = takenUplink u)
    (placed : u.waiting = none) :
    awake (takeHead unit) s = { a.state with uplink := answeredUplink u t a.result a.data a.settings } := by
  rw [awake_of_negated _ h.awake]
  unfold takeHead
  rw [headTelegram_of_atHead h]
  simp only [answered]
  exact respond_eq kept placed

/-- The uplink with the telegram that a break cut off as RESET_COORD leaves it. -/
def cutUplink (u : Uplink) : Uplink := { u with cutOff := u.cutOff.bind Sending.afterReset }

theorem report_restartCoord (s : State) : report .restartCoord (emptied s) = { emptied s with
    reports := { s.reports with
      queue := [⟨.restartCoord, 3, s.reports.nextSerial, s.clock, false⟩]
      nextSerial := s.reports.nextSerial + 1
      seen := s.reports.seen.set 13 true } } := by
  rw [report_of_room (show (emptied s).reports.queue.length < 64 by simp)]
  rfl

/-- What RESET_COORD leaves. -/
def coordReset (t : Telegram) (s : State) : State :=
  withUplink (answeredUplink (cutUplink s.uplink) t .accepted [] none) (report .restartCoord (emptied s))

theorem exec_resetCoord (h : ToPart s t Config.kResetCoord) (body : t.body = []) :
    exec .resetCoord s = .next (coordReset t s) := by
  have answered : managementFor Config.kResetCoord takeResetCoord (route s t) t (popInbound s) =
      some (accept (report .restartCoord (emptied (popInbound s)))) := by
    rw [route_of_part h (by decide)]
    simp only [managementFor, if_true, takeResetCoord, withEmptyBody_taken body]
  refine congrArg Host.Outcome.next ((awake_takeHead_from (u := cutUplink s.uplink) h.toAtHead answered ?_ h.placed).trans ?_)
  · rw [popInbound_eq, report_restartCoord]
    rfl
  · rw [coordReset, report_restartCoord, popInbound_eq, report_restartCoord]
    rfl

theorem area_reset (x : Area) : x.reset = { x with
    deck := if x.deck = .unlashWait then .lashed else if x.deck = .lashWait then .opened else x.deck } := by
  obtain ⟨deck, required, gang⟩ := x
  cases deck <;> rfl

/-- Settles O47: the fields of the state that RESET_COORD leaves, one by one. -/
theorem resetCoordEmpties : Obligations.ResetCoordEmpties := by
  intro s t h
  refine ⟨fun filled => ?_, fun body => ⟨coordReset t s, exec_resetCoord h body, ?_⟩⟩
  · exact congrArg Host.Outcome.next (management_refused h (by decide) (withEmptyBody_refused filled _))
  rw [coordReset, report_restartCoord]
  refine ⟨fun k => ⟨?_, ?_⟩, fun l => ?_, fun g => ?_, fun a => ?_, rfl, fun g => ?_, rfl, fun i => ?_, rfl, rfl,
    ⟨(cutUplink s.uplink).cutOff, rfl, ?_, ?_⟩, rfl, rfl, rfl, rfl, rfl, rfl, rfl⟩
  · exact Vector.getElem_replicate ..
  · exact Vector.ofFn_get ..
  · exact Vector.ofFn_get ..
  · exact Vector.getElem_replicate ..
  · exact (Vector.ofFn_get ..).trans (area_reset _)
  · refine (Vector.ofFn_get ..).trans ?_
    show (s.gangs[g]).reset = _
    obtain ⟨state, serial, mark⟩ := s.gangs[g]
    cases state <;> rfl
  · exact Vector.getElem_replicate ..
  · intro x cut
    simp [cutUplink, cut, Sending.afterReset]
  · intro other
    unfold cutUplink
    cases cut : s.uplink.cutOff with
    | none => rfl
    | some x =>
      cases x with
      | response x => exact absurd cut (other x)
      | report _ => rfl

end Sys2Proof.Machine


/-! PROOFS. The body of an ORDER_ADD read back (TABLES 53, 54). -/

namespace Sys2Proof.Machine

/-! ### Words and codes -/

theorem of16_be16 {n : Nat} (small : n < 65536) : of16 (byte (n / 256)) (byte n) = n := by
  simp only [of16, byte, BitVec.toNat_ofNat]
  omega

theorem moveOf_moveBytes (m : MoveNo) : moveOf (byte (m.toNat / 256)) (byte m.toNat) = m := by
  rw [moveOf, of16_be16 m.isLt]
  exact BitVec.ofNat_toNat ..

theorem moveOpt_moveOptBytes {m : Option MoveNo} (named : m ≠ some 0) :
    moveOpt (moveOf (byte ((m.getD 0).toNat / 256)) (byte (m.getD 0).toNat)) = m := by
  rw [moveOf_moveBytes]
  cases m with
  | none => rfl
  | some m => exact if_neg fun zero => named (congrArg some zero)

theorem moveKind_ofCode_code (k : MoveKind) : MoveKind.ofCode k.code = some k := by cases k <;> decide

theorem boxSize_ofCode_code (x : BoxSize) : BoxSize.ofCode x.code = some x := by cases x <;> rfl

theorem boxSize_code_lt (x : BoxSize) : x.code < 4 := by cases x <;> decide

/-- The four flags of a leg are the low bits of its second byte. -/
theorem flags_of_bits (b0 b1 b2 b3 : Bool) :
    (byte (bitsToNat [b0, b1, b2, b3])).toNat / 16 = 0 ∧ (byte (bitsToNat [b0, b1, b2, b3])).getLsbD 0 = b0 ∧
      (byte (bitsToNat [b0, b1, b2, b3])).getLsbD 1 = b1 ∧ (byte (bitsToNat [b0, b1, b2, b3])).getLsbD 2 = b2 ∧
      (byte (bitsToNat [b0, b1, b2, b3])).getLsbD 3 = b3 := by
  revert b0 b1 b2 b3
  decide

/-! ### Boxes and legs (TABLE 53) -/

theorem readBox_bytes {b : Box} (h : BoxEncodes b) (rest : List Byte) : readBox (b.bytes ++ rest) = some (b, rest) := by
  obtain ⟨len, mass⟩ := h
  have code := boxSize_code_lt b.size
  have word : of16 (byte ((b.size.code * 16384 + b.mass) / 256)) (byte (b.size.code * 16384 + b.mass)) =
      b.size.code * 16384 + b.mass := of16_be16 (by omega)
  have tail : (b.bytes ++ rest).drop 11 =
      byte ((b.size.code * 16384 + b.mass) / 256) :: byte (b.size.code * 16384 + b.mass) :: rest := by
    rw [Box.bytes, List.append_assoc, ← len, List.drop_left]
    rfl
  have head : (b.bytes ++ rest).take 11 = b.identifier := by
    rw [Box.bytes, List.append_assoc, ← len, List.take_left]
  unfold readBox
  rw [tail]
  simp only [head, word]
  rw [if_neg (by omega), show (b.size.code * 16384 + b.mass) / 16384 = b.size.code by omega, boxSize_ofCode_code,
    show (b.size.code * 16384 + b.mass) % 1024 = b.mass by omega]
  rfl

theorem toNat_byte {n : Nat} (small : n < 256) : (byte n).toNat = n := by
  simp only [byte, BitVec.toNat_ofNat]
  omega

theorem zone_of_bit (z : Zone) : (if decide (z = .deck) then Zone.deck else .hold) = z := by cases z <;> rfl

/-- A leg read after its two first bytes, from the flags and the place to set into. -/
def readBoxes (leg : Box → Option Box → Leg) (twin : Bool) (rest : List Byte) : Option (Leg × List Byte) :=
  (readBox rest).bind fun (b1, rest) =>
    if twin then (readBox rest).map fun (b2, rest) => (leg b1 (some b2), rest) else some (leg b1 none, rest)

theorem readBoxes_bytes (leg : Box → Option Box → Leg) {b1 : Box} {b2 : Option Box} (h1 : BoxEncodes b1)
    (h2 : ∀ b, b2 = some b → BoxEncodes b) (rest : List Byte) :
    readBoxes leg b2.isSome (b1.bytes ++ ((b2.map Box.bytes).getD [] ++ rest)) = some (leg b1 b2, rest) := by
  unfold readBoxes
  rw [readBox_bytes h1]
  cases b2 with
  | none => rfl
  | some b =>
    simp only [Option.bind_some, Option.isSome_some, if_true, Option.map_some, Option.getD_some]
    rw [readBox_bytes (h2 b rfl)]
    rfl

/-- A leg of a move that is no RESTOW. -/
theorem readLeg_plain (bay : Byte) (b0 b2 : Bool) (rest : List Byte) :
    readLeg false (bay :: byte (bitsToNat [b0, false, b2, false]) :: rest) =
      readBoxes (fun x y => ⟨bay.toNat, if b0 then .deck else .hold, none, x, y⟩) b2 rest := by
  obtain ⟨high, bit0, bit1, bit2, bit3⟩ := flags_of_bits b0 false b2 false
  unfold readLeg readBoxes
  simp only [high, bit0, bit1, bit2, bit3]
  rfl

/-- A leg of a RESTOW that sets into its own bay. -/
theorem readLeg_restow (bay : Byte) (b0 b1 b2 : Bool) (rest : List Byte) :
    readLeg true (bay :: byte (bitsToNat [b0, b1, b2, false]) :: rest) =
      readBoxes (fun x y => ⟨bay.toNat, if b0 then .deck else .hold, some ⟨if b1 then .deck else .hold, none⟩, x, y⟩) b2
        rest := by
  obtain ⟨high, bit0, bit1, bit2, bit3⟩ := flags_of_bits b0 b1 b2 false
  unfold readLeg readBoxes
  simp only [high, bit0, bit1, bit2, bit3]
  rfl

/-- A leg of a RESTOW that names the bay it sets into. -/
theorem readLeg_restow_bay (bay toBay : Byte) (b0 b1 b2 : Bool) (rest : List Byte) :
    readLeg true (bay :: byte (bitsToNat [b0, b1, b2, true]) :: toBay :: rest) =
      readBoxes (fun x y => ⟨bay.toNat, if b0 then .deck else .hold,
        some ⟨if b1 then .deck else .hold, some toBay.toNat⟩, x, y⟩) b2 rest := by
  obtain ⟨high, bit0, bit1, bit2, bit3⟩ := flags_of_bits b0 b1 b2 true
  unfold readLeg readBoxes
  simp only [high, bit0, bit1, bit2, bit3]
  rfl

theorem readLeg_bytes {kind : MoveKind} {l : Leg} (h : LegEncodes kind l) (rest : List Byte) :
    readLeg (decide (kind = .restow)) (l.bytes ++ rest) = some (l, rest) := by
  obtain ⟨bay, zone, restow, box1, box2⟩ := l
  obtain ⟨small, only, near, box1Fits, box2Fits⟩ := h
  have bay_eq : (byte bay).toNat = bay := toNat_byte small
  have boxes (leg : Box → Option Box → Leg) := readBoxes_bytes leg box1Fits box2Fits rest
  have kind_eq : decide (kind = .restow) = restow.isSome := by
    rw [Bool.eq_iff_iff, decide_eq_true_eq]
    exact only.symm
  rw [kind_eq]
  cases restow with
  | none =>
    have bytes : (⟨bay, zone, none, box1, box2⟩ : Leg).bytes ++ rest =
        byte bay :: byte (bitsToNat [decide (zone = .deck), false, box2.isSome, false]) ::
          (box1.bytes ++ ((box2.map Box.bytes).getD [] ++ rest)) := by simp [Leg.bytes]
    rw [bytes]
    refine (readLeg_plain ..).trans ((boxes _).trans ?_)
    rw [bay_eq, zone_of_bit]
  | some d =>
    obtain ⟨toZone, toBay⟩ := d
    cases toBay with
    | none =>
      have bytes : (⟨bay, zone, some ⟨toZone, none⟩, box1, box2⟩ : Leg).bytes ++ rest =
          byte bay :: byte (bitsToNat [decide (zone = .deck), decide (toZone = .deck), box2.isSome, false]) ::
            (box1.bytes ++ ((box2.map Box.bytes).getD [] ++ rest)) := by simp [Leg.bytes]
      rw [bytes]
      refine (readLeg_restow ..).trans ((boxes _).trans ?_)
      rw [bay_eq, zone_of_bit, zone_of_bit]
    | some b =>
      have bytes : (⟨bay, zone, some ⟨toZone, some b⟩, box1, box2⟩ : Leg).bytes ++ rest =
          byte bay :: byte (bitsToNat [decide (zone = .deck), decide (toZone = .deck), box2.isSome, true]) :: byte b ::
            (box1.bytes ++ ((box2.map Box.bytes).getD [] ++ rest)) := by simp [Leg.bytes]
      rw [bytes]
      refine (readLeg_restow_bay ..).trans ((boxes _).trans ?_)
      rw [bay_eq, zone_of_bit, zone_of_bit, toNat_byte (near ⟨toZone, some b⟩ b rfl rfl)]

theorem length_leg_bytes_pos (l : Leg) : 0 < l.bytes.length := by simp [Leg.bytes]

theorem readLegs_flatMap {kind : MoveKind} (ls : List Leg) (fits : ∀ l ∈ ls, LegEncodes kind l) : ∀ n,
    ls.length ≤ n → readLegs (decide (kind = .restow)) n (ls.flatMap Leg.bytes) = some ls := by
  induction ls with
  | nil =>
    intro n _
    cases n <;> rfl
  | cons l ls ih =>
    intro n enough
    obtain ⟨n, rfl⟩ : ∃ m, n = m + 1 := ⟨n - 1, by simp at enough; omega⟩
    obtain ⟨fit, fits⟩ := List.forall_mem_cons.1 fits
    have step : readLegs (decide (kind = .restow)) (n + 1) (l.bytes ++ ls.flatMap Leg.bytes) =
        (readLeg (decide (kind = .restow)) (l.bytes ++ ls.flatMap Leg.bytes)).bind fun (l, rest) =>
          (readLegs (decide (kind = .restow)) n rest).map (l :: ·) := by
      cases bytes : l.bytes with
      | nil => exact absurd (congrArg List.length bytes) (length_leg_bytes_pos l).ne'
      | cons b bs => rfl
    rw [List.flatMap_cons, step, readLeg_bytes fit]
    simp only [Option.bind_some]
    rw [ih fits n (by simpa using enough)]
    rfl

/-- Settles O60, by the legs read back one after the other. -/
theorem orderAddBodyReadsBack : Obligations.OrderAddBodyReadsBack := by
  intro o legs after before
  have body : moveBytes o.number ++ [o.kind.code] ++ moveOptBytes o.afterMove ++ moveOptBytes o.beforeMove ++
      o.legs.flatMap Leg.bytes = byte (o.number.toNat / 256) :: byte o.number.toNat :: o.kind.code ::
        byte ((o.afterMove.getD 0).toNat / 256) :: byte (o.afterMove.getD 0).toNat ::
        byte ((o.beforeMove.getD 0).toNat / 256) :: byte (o.beforeMove.getD 0).toNat :: o.legs.flatMap Leg.bytes := rfl
  have enough : o.legs.length ≤ (o.legs.flatMap Leg.bytes).length := by
    rw [List.length_flatMap]
    refine (List.length_le_sum_of_one_le _ fun n mem => ?_).trans' (by rw [List.length_map])
    obtain ⟨l, -, rfl⟩ := List.mem_map.1 mem
    exact length_leg_bytes_pos l
  rw [body, readAdd, moveKind_ofCode_code, Option.bind_some, readLegs_flatMap o.legs legs _ enough, moveOf_moveBytes,
    moveOpt_moveOptBytes after, moveOpt_moveOptBytes before]
  rfl

end Sys2Proof.Machine


/-! PROOFS. IDENT, STATUS and READ (TABLES 61 and 64). -/

namespace Sys2Proof.Machine

variable {s : State} {t : Telegram}

/-! ### Telegrams answered with data -/

theorem management_data {kind : Byte} {act : List Byte → State → Answer} {d : List Byte} (h : ToPart s t kind)
    (known : 0x20 ≤ kind.toNat ∧ kind.toNat ≤ 0x2D) (answered : act t.body (popInbound s) = answerData d (popInbound s)) :
    awake (takeHead (managementFor kind act)) s = answeredData s t d := by
  rw [management_answered h known answered (by rw [popInbound_eq]; rfl), popInbound_eq]
  rfl

theorem exec_ident (h : ToPart s t Config.kIdent) (body : t.body = []) :
    exec .ident s = .next (answeredData s t
      [0x0A, 0x17, 0x0C, 0x08, 1, 8, 6, 8, 16, 64, 32, 32, 64, 16, 8, 96, 0x02, 0x00]) :=
  congrArg Host.Outcome.next (management_data h (by decide) (withEmptyBody_taken body _))

theorem exec_status (h : ToPart s t Config.kStatus) (body : t.body = []) :
    exec .status s = .next (answeredData s t (statusData s)) := by
  refine congrArg Host.Outcome.next (management_data h (by decide) ((withEmptyBody_taken body _).trans ?_))
  rw [popInbound_eq]
  rfl

/-! ### The data of STATUS (R172) -/

theorem testBit_bitsToNat (bs : List Bool) : ∀ i, (bitsToNat bs).testBit i = bs.getD i false := by
  induction bs with
  | nil => simp [bitsToNat]
  | cons b bs ih =>
    intro i
    cases i with
    | zero => cases b <;> simp [bitsToNat, Nat.testBit_zero]
    | succ i =>
      rw [List.getD_cons_succ, ← ih, Nat.testBit_succ, bitsToNat]
      congr 1
      split <;> omega

theorem bitsToNat_lt (bs : List Bool) : bitsToNat bs < 2 ^ bs.length := by
  induction bs with
  | nil => simp [bitsToNat]
  | cons b bs ih =>
    rw [bitsToNat, List.length_cons, Nat.pow_succ]
    split <;> omega

theorem testBit_maskOf {n : Nat} (v : Vector Bool n) (i : Fin n) : (maskOf v).testBit i.val = v[i] := by
  rw [maskOf, testBit_bitsToNat]
  simp [List.getD]

theorem maskOf_lt {n : Nat} (v : Vector Bool n) : maskOf v < 2 ^ n := by
  have := bitsToNat_lt v.toList
  rwa [Vector.length_toList] at this

theorem stationList_get (x : Station) : stationList[x.index.val]? = some x := by
  cases x with
  | crane k => revert k; decide
  | gang g => revert g; decide
  | gate u => revert u; decide

/-- The first eleven bytes of STATUS, before the rows of the cranes. -/
def statusHead (s : State) : List Byte :=
  [s.berth.state.code, s.berth.causes.code, flagByte s.berth.closed, flagByte (calm s)] ++
    be16 (maskOf s.reports.seen) ++ be16 (maskOf s.reports.lost) ++ [flagByte (attention s)] ++ be16 (pool s).length

/-- The last fifteen bytes of STATUS, after the station states. -/
def statusTail (s : State) : List Byte :=
  [byte (slotCount s 0), byte (slotCount s 1), byte (slotCount s 2), byte (slotCount s 3), byte (slotCount s 4),
    byte (strayCount s), byte (jobCount s .unlash), byte (jobCount s .lash), byte (maskOf s.uplink.latches),
    byte s.reports.queue.length, byte s.field.forward.length] ++ clockBytes s.clock

theorem statusData_eq (s : State) : statusData s = statusHead s ++ (cranes.map (fun k => byte (s.queues[k]).length) ++
    (cranes.map (fun k => (s.cranes[k]).mode.code) ++ (stationList.map (fun st => (stationState s st).code) ++
      statusTail s))) := by
  simp only [← List.append_assoc]
  rfl

theorem length_map_cranes {α : Type} (f : CraneNo → α) : (cranes.map f).length = 8 := by simp [cranes]

theorem length_map_stationList {α : Type} (f : Station → α) : (stationList.map f).length = 22 := by
  rw [List.length_map]
  rfl

theorem statusData_drop (s : State) : (statusData s).drop 49 = statusTail s := by
  rw [statusData_eq, ← List.append_assoc, ← List.append_assoc, ← List.append_assoc]
  refine List.drop_left' ?_
  rw [List.length_append, List.length_append, List.length_append, length_map_cranes, length_map_cranes,
    length_map_stationList]
  rfl

theorem statusData_drop_add (s : State) (n : Nat) : (statusData s).drop (49 + n) = (statusTail s).drop n := by
  rw [← List.drop_drop, statusData_drop]

theorem statusData_get_add (s : State) (n : Nat) : (statusData s)[49 + n]? = (statusTail s)[n]? := by
  rw [← statusData_drop, List.getElem?_drop]

/-- An entry of the second of three lists. -/
theorem getElem?_middle {α : Type} {n i : Nat} {as bs cs : List α} {b : α} (len : as.length = n) (entry : bs[i]? = some b) :
    (as ++ (bs ++ cs))[n + i]? = some b := by
  obtain ⟨inside, -⟩ := List.getElem?_eq_some_iff.1 entry
  rw [← len, List.getElem?_append_right (Nat.le_add_right ..), Nat.add_sub_cancel_left, List.getElem?_append_left inside,
    entry]

theorem map_cranes_get {α : Type} (f : CraneNo → α) (k : CraneNo) : (cranes.map f)[k.val]? = some (f k) := by
  simp [cranes]

theorem statusData_queue (s : State) (k : CraneNo) : (statusData s)[11 + k.val]? = some (byte (s.queues[k]).length) := by
  rw [statusData_eq]
  exact getElem?_middle rfl (map_cranes_get (fun k => byte (s.queues[k]).length) k)

theorem statusData_mode (s : State) (k : CraneNo) : (statusData s)[19 + k.val]? = some (s.cranes[k]).mode.code := by
  rw [statusData_eq, ← List.append_assoc]
  refine getElem?_middle ?_ (map_cranes_get (fun k => (s.cranes[k]).mode.code) k)
  rw [List.length_append, length_map_cranes]
  rfl

theorem statusData_station (s : State) (x : Station) :
    (statusData s)[27 + x.index.val]? = some (s.stations[x.index]).state.code := by
  rw [statusData_eq, ← List.append_assoc, ← List.append_assoc]
  refine getElem?_middle ?_ ?_
  · rw [List.length_append, List.length_append, length_map_cranes, length_map_cranes]
    rfl
  · rw [List.getElem?_map, stationList_get]
    rfl

theorem slotCount_zero (s : State) : slotCount s 0 =
    lanes.countP fun l => decide ((s.lanes[l]).slot = .free false ∨ (s.lanes[l]).slot = .free true) := by
  rw [slotCount, ← List.countP_eq_length_filter]
  refine congrFun (congrArg List.countP (funext fun l => decide_eq_decide.2 ?_)) lanes
  rw [slot_code_eq_zero_iff]
  exact Bool.exists_bool

theorem slotCount_eq (s : State) (c : Byte) :
    slotCount s c = lanes.countP fun l => decide ((s.lanes[l]).slot.code = c) := by
  rw [slotCount, ← List.countP_eq_length_filter]

theorem slot_code_eq_four_iff (x : Slot) : x.code = 4 ↔ x = .worked := by cases x <;> simp [Slot.code]

theorem slotCount_four (s : State) : slotCount s 4 = lanes.countP fun l => decide ((s.lanes[l]).slot = .worked) := by
  rw [slotCount_eq]
  exact congrFun (congrArg List.countP (funext fun l => decide_eq_decide.2 (slot_code_eq_four_iff _))) lanes

theorem strayCount_eq (s : State) : strayCount s = lanes.countP fun l => decide ((s.lanes[l]).slot = .free true) := by
  rw [strayCount, ← List.countP_eq_length_filter]

theorem jobCount_eq (s : State) (k : JobKind) : jobCount s k = s.jobs.countP fun j => decide (j.kind = k) := by
  rw [jobCount, ← List.countP_eq_length_filter]

theorem statusData_take (s : State) (n : Nat) (few : n ≤ 11) : (statusData s).take n = (statusHead s).take n := by
  rw [statusData_eq, List.take_append_of_le_length few]

/-! ### READ (R173) -/

theorem within_of_index {n i : Nat} {x : Fin n} (index : i = x.val) (read : Fin n → List Byte) (s : State) :
    within n i read s = answerData (read x) s := by
  subst index
  exact dif_pos x.isLt

theorem readTable_of_unlisted {n : Nat} (unlisted : n = 0 ∨ 12 < n) (i : Nat) (s : State) :
    readTable n i s = refuse .range s := by
  unfold readTable
  split
  case h_13 => rfl
  all_goals omega

end Sys2Proof.Machine


/-! PROOFS. IDENT, STATUS and READ, statement by statement (TABLE 61). -/

namespace Sys2Proof.Machine

variable {s : State} {t : Telegram} {b hi lo : Byte}

theorem exec_read_of_data {d : List Byte} (h : ToPart s t Config.kRead) (body : t.body = [b, hi, lo])
    (answered : ∀ s' : State, (∃ u, s' = withUplink u s) → readTable b.toNat (of16 hi lo) s' = answerData d s') :
    exec .read s = .next (answeredData s t d) := by
  refine congrArg Host.Outcome.next (management_data h (by decide) ?_)
  rw [body]
  exact answered _ ⟨_, popInbound_withUplink s⟩

theorem exec_read_of_refused {x : Result} (h : ToPart s t Config.kRead) (body : t.body = [b, hi, lo])
    (refused : ∀ s' : State, (∃ u, s' = withUplink u s) → readTable b.toNat (of16 hi lo) s' = refuse x s') :
    exec .read s = .next (answeredOnly s t x) := by
  refine congrArg Host.Outcome.next (management_refused h (by decide) ?_)
  rw [body]
  exact refused _ ⟨_, popInbound_withUplink s⟩

/-- A table of rows, read at one of them. -/
theorem exec_read_row {n : Nat} {x : Fin n} {read : State → Fin n → List Byte} (h : ToPart s t Config.kRead)
    (body : t.body = [b, hi, lo]) (index : of16 hi lo = x.val)
    (table : ∀ s i, readTable b.toNat i s = within n i (read s) s) (free : ∀ u, read (withUplink u s) x = read s x) :
    exec .read s = .next (answeredData s t (read s x)) := by
  refine exec_read_of_data h body fun s' ⟨u, eq⟩ => ?_
  rw [table, within_of_index index, eq, free]

theorem of16_lt (hi lo : Byte) : of16 hi lo < 65536 := by
  unfold of16
  omega

theorem moveOf_eq_zero_iff : moveOf hi lo = 0 ↔ of16 hi lo = 0 := by
  have small := of16_lt hi lo
  unfold moveOf
  constructor
  · intro zero
    have value := congrArg BitVec.toNat zero
    rw [BitVec.toNat_ofNat] at value
    simp at value
    omega
  · intro zero
    rw [zero]
    rfl

theorem readTable_unknown (unknown : moveOf hi lo = 0 ∨ moveOf hi lo ∉ (pool s).map (·.number)) :
    readTable 1 (of16 hi lo) s = refuse .unknown s := by
  cases find : findMove s (moveOf hi lo) with
  | none =>
    unfold readTable
    simp only
    rw [show findMove s (BitVec.ofNat 16 (of16 hi lo)) = none from find]
  | some x =>
    obtain ⟨k, r⟩ := x
    have known : moveOf hi lo ∈ (pool s).map (·.number) := (inPool_iff s _).1 (by rw [inPool, find]; rfl)
    have zero : of16 hi lo = 0 := moveOf_eq_zero_iff.1 (unknown.resolve_right (not_not.2 known))
    unfold readTable
    simp only
    rw [show findMove s (BitVec.ofNat 16 (of16 hi lo)) = some (k, r) from find]
    exact if_pos zero

theorem readTable_outside {n : Nat} (first : 2 ≤ n) (last : n ≤ 12) {i : Nat} (outside : tableRows n ≤ i) (s : State) :
    readTable n i s = refuse .range s := by
  interval_cases n <;> exact dif_neg (Nat.not_lt.2 outside)

/-- Settles O39: the three telegrams through the data that they answer with, item by item. -/
theorem identStatusReadAnswer : Obligations.IdentStatusReadAnswer := by
  intro s t
  refine ⟨fun h => ⟨exec_ident h, fun body => ?_⟩, fun h => ⟨fun body => ?_, fun body =>
    ⟨statusData s, exec_status h body, ?_, ?_, ⟨maskOf s.reports.seen, maskOf s.reports.lost, ?_, ?_, ?_, ?_⟩, ?_, ?_,
      fun k => ⟨statusData_queue s k, statusData_mode s k⟩, statusData_station s, ?_, ?_,
      ⟨maskOf s.uplink.latches, ?_, ?_, ?_⟩, ?_, ?_, ?_⟩⟩, fun h => ⟨fun long => ?_, fun b hi lo body => ?_⟩⟩
  · exact congrArg Host.Outcome.next (management_refused h (by decide) (withEmptyBody_refused body _))
  · exact congrArg Host.Outcome.next (management_refused h (by decide) (withEmptyBody_refused body _))
  · simp only [statusData_eq, List.length_append, length_map_cranes, length_map_stationList]
    rfl
  · rw [statusData_take s 4 (by decide)]
    rfl
  · rw [statusData_eq]
    rfl
  · exact maskOf_lt s.reports.seen
  · exact maskOf_lt s.reports.lost
  · exact fun c => ⟨testBit_maskOf s.reports.seen c, testBit_maskOf s.reports.lost c⟩
  · rw [statusData_eq]
    rfl
  · rw [statusData_eq]
    rfl
  · rw [statusData_drop, ← slotCount_zero, ← slotCount_eq, ← slotCount_eq, ← slotCount_eq, ← slotCount_four,
      ← strayCount_eq]
    rfl
  · rw [statusData_drop_add s 6, ← jobCount_eq, ← jobCount_eq]
    rfl
  · exact statusData_get_add s 8
  · exact maskOf_lt s.uplink.latches
  · exact fun f => testBit_maskOf s.uplink.latches f.index
  · exact statusData_get_add s 9
  · exact statusData_get_add s 10
  · exact statusData_drop_add s 11
  · refine congrArg Host.Outcome.next (management_refused h (by decide) ?_)
    unfold takeRead
    split
    · next eq => exact absurd (congrArg List.length eq) long
    · rfl
  · refine ⟨fun unlisted => ?_, fun first last outside => ?_, fun one unknown => ?_, fun g table index => ?_,
      fun i table index => ⟨fun x entry => ?_, fun empty => ?_⟩, fun l table index => ?_, fun table small => ?_,
      fun x table index => ?_, fun i table index => ?_, fun k table index => ?_⟩
    · refine exec_read_of_refused h body fun s' _ => readTable_of_unlisted ?_ _ s'
      exact unlisted.imp_left fun zero => by rw [zero]; rfl
    · exact exec_read_of_refused h body fun s' _ => readTable_outside first last outside s'
    · refine exec_read_of_refused h body fun s' ⟨u, eq⟩ => ?_
      subst one
      subst eq
      exact readTable_unknown unknown
    · subst table
      exact exec_read_row (read := readGang) h body index (fun _ _ => rfl) fun _ => rfl
    · subst table
      rw [exec_read_row (read := fun s r => readBay s.bays[r]) h body index (fun _ _ => rfl) fun _ => rfl, entry]
      rfl
    · subst table
      rw [exec_read_row (read := fun s r => readBay s.bays[r]) h body index (fun _ _ => rfl) fun _ => rfl, empty]
      rfl
    · subst table
      exact exec_read_row (read := fun s l => readLaneRow s.lanes[l]) h body index (fun _ _ => rfl) fun _ => rfl
    · subst table
      exact exec_read_row (x := ⟨of16 hi lo, small⟩) (read := fun s p => [s.field.plan.getD p.val 0]) h body rfl
        (fun _ _ => rfl) fun _ => rfl
    · subst table
      exact exec_read_row (read := fun s x => readStation s.stations[x]) h body index (fun _ _ => rfl) fun _ => rfl
    · subst table
      exact exec_read_row (read := fun s p => be16 (par s p)) h body index (fun _ _ => rfl) fun _ => rfl
    · subst table
      exact exec_read_row (read := readCycle) h body index (fun _ _ => rfl) fun _ => rfl

end Sys2Proof.Machine


/-! PROOFS. A pool of distinct numbers, and the READ of its tables (TABLE 64). -/

namespace Sys2Proof.Machine

variable {s : State} {t : Telegram}

/-! ### A pool of distinct numbers (R1) -/

section
variable {k j : CraneNo} {r x : MoveRecord}

/-- In a pool of distinct numbers a number names one record of one queue. -/
theorem pool_unique (distinct : ((pool s).map (·.number)).Nodup) (hr : r ∈ s.queues[k]) (hx : x ∈ s.queues[j])
    (same : x.number = r.number) : j = k ∧ x = r := by
  rw [pool_numbers, List.nodup_flatMap] at distinct
  obtain ⟨inside, apart⟩ := distinct
  have crane : j = k := by
    by_contra other
    have symmetric : Std.Symm (Function.onFun List.Disjoint (queueNumbers s)) := ⟨fun _ _ d => List.Disjoint.symm d⟩
    have disjoint := apart.forall (List.mem_finRange j) (List.mem_finRange k) other
    exact disjoint (List.mem_map_of_mem hx) (same ▸ List.mem_map_of_mem hr)
  subst crane
  exact ⟨rfl, List.inj_on_of_nodup_map (inside j (List.mem_finRange j)) hx hr same⟩

theorem queueNumbers_nodup (distinct : ((pool s).map (·.number)).Nodup) (k : CraneNo) : (queueNumbers s k).Nodup := by
  rw [pool_numbers, List.nodup_flatMap] at distinct
  exact distinct.1 k (List.mem_finRange k)

theorem findIn_of_mem (distinct : ((pool s).map (·.number)).Nodup) (hr : r ∈ s.queues[k]) :
    findIn s k r.number = some r := by
  cases find : findIn s k r.number with
  | none => exact absurd (decide_eq_true rfl) (List.find?_eq_none.1 find r hr)
  | some x =>
    obtain ⟨hx, same⟩ := findIn_mem find
    rw [(pool_unique distinct hr hx same).2]

theorem findMove_of_mem (distinct : ((pool s).map (·.number)).Nodup) (hr : r ∈ s.queues[k]) :
    findMove s r.number = some (k, r) := by
  cases find : findMove s r.number with
  | none =>
    have none_of := List.findSome?_eq_none_iff.1 find k (List.mem_finRange k)
    rw [findIn_of_mem distinct hr] at none_of
    cases none_of
  | some y =>
    obtain ⟨j, -, found⟩ := List.exists_of_findSome?_eq_some find
    obtain ⟨x, entry, rfl⟩ := Option.map_eq_some_iff.1 found
    obtain ⟨hx, same⟩ := findIn_mem entry
    obtain ⟨rfl, rfl⟩ := pool_unique distinct hr hx same
    rfl

end

/-! ### Items of a READ (R156) -/

theorem findIdx_split {α : Type} {f : α → Bool} {p q : List α} {x : α} (before : ∀ y ∈ p, f y = false) (here : f x = true) :
    (p ++ x :: q).findIdx f = p.length := by
  rw [List.findIdx_append, List.findIdx_eq_length.2 before, if_neg (Nat.lt_irrefl _), List.findIdx_cons, here, cond_true,
    Nat.zero_add]

/-- The data of a READ of a move that is in the pool. -/
theorem readTable_move {k : CraneNo} {r : MoveRecord} {hi lo : Byte} (distinct : ((pool s).map (·.number)).Nodup)
    (named : moveOf hi lo = r.number) (real : r.number ≠ 0) (mem : r ∈ s.queues[k]) :
    readTable 1 (of16 hi lo) s = answerData (readMove s k r) s := by
  have found : findMove s (BitVec.ofNat 16 (of16 hi lo)) = some (k, r) := by
    rw [show BitVec.ofNat 16 (of16 hi lo) = r.number from named]
    exact findMove_of_mem distinct mem
  unfold readTable
  simp only
  rw [found]
  exact if_neg fun zero => real (named ▸ moveOf_eq_zero_iff.2 zero)

theorem moveBytes_moveOf (hi lo : Byte) : moveBytes (moveOf hi lo) = [hi, lo] := by
  have value : (moveOf hi lo).toNat = of16 hi lo := by
    rw [moveOf, BitVec.toNat_ofNat]
    exact Nat.mod_eq_of_lt (of16_lt hi lo)
  have low := lo.isLt
  rw [moveBytes, value, be16]
  congr 1
  · refine BitVec.eq_of_toNat_eq ?_
    simp only [byte, BitVec.toNat_ofNat, of16]
    omega
  · refine congrArg (fun b => [b]) (BitVec.eq_of_toNat_eq ?_)
    simp only [byte, BitVec.toNat_ofNat, of16]
    omega

theorem bitsToNat_four (a b c d : Bool) :
    bitsToNat [a, b, c, d] = a.toNat + 2 * b.toNat + 4 * c.toNat + 8 * d.toNat := by
  revert a b c d
  decide

/-- A READ of a table of rows gives the data of the row. -/
theorem exec_read_gives {n : Nat} {x : Fin n} {read : State → Fin n → List Byte} {b hi lo : Byte} {d : List Byte}
    (h : ToPart s t Config.kRead) (body : t.body = [b, hi, lo]) (index : of16 hi lo = x.val)
    (table : ∀ s i, readTable b.toNat i s = within n i (read s) s) (free : ∀ u, read (withUplink u s) x = read s x)
    (data : read s x = d) : exec .read s = .next (answeredData s t d) :=
  data ▸ exec_read_row h body index table free

theorem readArea_of_no_job {a : AreaNo} (free : ∀ j ∈ s.jobs, j.area ≠ a) : readArea s a =
    [(s.areas[a]).deck.code, flagByte (s.areas[a]).lashRequired, indexOptByte ((s.areas[a]).gang.map (·.val))] ++
      [0, 0xFF] := by
  have index : (s.jobs.findIdx fun j => decide (j.area = a)) = s.jobs.length :=
    List.findIdx_eq_length.2 fun j mem => decide_eq_false (free j mem)
  unfold readArea
  simp only [index, List.getElem?_length]
  rfl

theorem readArea_of_job {a : AreaNo} {p q : List Job} {j : Job} (split : s.jobs = p ++ j :: q) (here : j.area = a)
    (before : ∀ y ∈ p, y.area ≠ a) : readArea s a =
    [(s.areas[a]).deck.code, flagByte (s.areas[a]).lashRequired, indexOptByte ((s.areas[a]).gang.map (·.val))] ++
      [j.kind.code, byte p.length] := by
  have index : (s.jobs.findIdx fun j => decide (j.area = a)) = p.length := by
    rw [split]
    exact findIdx_split (fun y mem => decide_eq_false (before y mem)) (decide_eq_true here)
  have entry : s.jobs[p.length]? = some j := by rw [split]; simp
  unfold readArea
  simp only [index, entry]
  rfl

theorem readRoster_of_few {e : RosterEntry} (few : e.homeLanes.length ≤ 3) : readRoster (some e) =
    [1] ++ be16 e.parking ++ [byte e.homeLanes.length] ++
      ((e.homeLanes.map fun l => byte l.val) ++ List.replicate (3 - e.homeLanes.length) 0xFF) := by
  have cut : ((e.homeLanes.map fun l : LaneNo => byte l.val) ++ List.replicate 3 (0xFF : Byte)).take 3 =
      (e.homeLanes.map fun l => byte l.val) ++ List.replicate (3 - e.homeLanes.length) 0xFF := by
    rw [List.take_append, List.length_map, List.take_of_length_le (by rwa [List.length_map]), List.take_replicate,
      Nat.min_eq_left (Nat.sub_le ..)]
  unfold readRoster
  simp only [cut]

/-- Settles O40: each table through the data that `readTable` gives, the items case by case. -/
theorem readTablesAnswer : Obligations.ReadTablesAnswer := by
  refine ⟨fun s t b hi lo h body => ?_, fun l => ?_, by decide, by decide, by decide, by decide, by decide, by decide,
    by decide, by decide, fun f m => by rfl, fun k j => by rfl⟩
  · intro two opt four time word index flag gives
    have opt_eq (m : Option MoveNo) : moveOptBytes m = opt m := by cases m <;> rfl
    have time_eq (c : Option Clock) : clockOptBytes c = time c := by cases c <;> rfl
    have word_eq (n : Option Nat) : wordOptBytes n = word n := by cases n <;> rfl
    have index_eq (n : Option Nat) : indexOptByte n = index n := by cases n <;> rfl
    refine ⟨fun k p r q table named real split distinct => ?_, fun k table place => ?_, fun l table place => ?_,
      fun a table place => ?_, fun k table place => ⟨fun out => ?_, fun e entry few => ?_⟩⟩
    · subst table
      have mem : r ∈ s.queues[k] := by simp [split]
      have place : ((s.queues[k]).findIdx fun x => decide (x.number = r.number)) = p.length := by
        rw [split]
        refine findIdx_split (fun y before => decide_eq_false fun same => ?_) (decide_eq_true rfl)
        have numbers := queueNumbers_nodup distinct k
        rw [queueNumbers, split, List.map_append, List.nodup_append] at numbers
        exact numbers.2.2 _ (List.mem_map_of_mem before) _ (List.mem_map_of_mem (List.mem_cons_self ..)) same
      refine exec_read_of_data h body fun s' ⟨u, eq⟩ => ?_
      subst eq
      refine (readTable_move (s := withUplink u s) distinct named real mem).trans (congrArg (answerData · _) ?_)
      show readMove s k r = _
      unfold readMove
      rw [← named, moveBytes_moveOf, named, place, opt_eq, time_eq, time_eq, index_eq]
      cases r.progress with
      | none => simp only [List.append_assoc]; rfl
      | some x =>
        obtain ⟨next, lift1, lift2⟩ := x
        have lifts : bitsToNat [lift1, lift2] = lift1.toNat + 2 * lift2.toNat := by cases lift1 <;> cases lift2 <;> rfl
        simp only [List.append_assoc, Option.any_some, lifts]
        rfl
    · subst table
      intro c
      refine exec_read_gives (read := readCrane) h body place (fun _ _ => rfl) (fun _ => rfl) ?_
      unfold readCrane
      simp only [show s.cranes[k] = c from rfl]
      clear_value c
      rw [opt_eq, opt_eq, opt_eq, opt_eq, opt_eq, time_eq, time_eq, time_eq, word_eq, word_eq]
      cases c.view with
      | none =>
        cases c.directive with
        | none => simp only [List.append_assoc]; rfl
        | some d => simp only [List.append_assoc]; rfl
      | some v =>
        cases c.directive with
        | none => simp only [List.append_assoc]; rfl
        | some d => simp only [List.append_assoc]; rfl
    · subst table
      intro x
      refine exec_read_gives (read := fun s l => readLane s.lanes[l]) h body place (fun _ _ => rfl) (fun _ => rfl) ?_
      show readLane x = _
      clear_value x
      unfold readLane
      rw [opt_eq, opt_eq, time_eq, index_eq, index_eq]
      cases x.request with
      | none => simp only [List.append_assoc]; rfl
      | some q => simp only [List.append_assoc]; rfl
    · subst table
      intro x items
      refine ⟨fun free => ?_, fun p j q split here before => ?_⟩
      · refine exec_read_gives (read := readArea) h body place (fun _ _ => rfl) (fun _ => rfl) ?_
        rw [readArea_of_no_job free, index_eq]
        rfl
      · refine exec_read_gives (read := readArea) h body place (fun _ _ => rfl) (fun _ => rfl) ?_
        rw [readArea_of_job split here before, index_eq]
        rfl
    · subst table
      refine exec_read_gives (read := fun s k => readRoster s.roster[k]) h body place (fun _ _ => rfl) (fun _ => rfl) ?_
      rw [out]
      rfl
    · subst table
      refine exec_read_gives (read := fun s k => readRoster s.roster[k]) h body place (fun _ _ => rfl) (fun _ => rfl) ?_
      rw [entry, readRoster_of_few few, List.append_assoc]
      rfl
  · intro toBay deck box
    have deck_eq (z : Zone) : deck z = (decide (z = .deck)).toNat := by cases z <;> rfl
    have zone_eq : (l.restow.map fun d => deck d.toZone).getD 0 =
        (decide (l.restow.map (·.toZone) = some .deck)).toNat := by
      cases l.restow with
      | none => rfl
      | some d => exact (deck_eq d.toZone).trans (by simp)
    rw [deck_eq, zone_eq, ← bitsToNat_four]
    rfl

end Sys2Proof.Machine


/-! PROOFS. SET_PARAM and its effects on other blocks (R174, R104). -/

namespace Sys2Proof.Machine

variable {s : State} {t : Telegram} {a : AreaNo}

/-! ### The unlash test (R104) -/

theorem unlashTest_of_not_due (spared : ¬((s.areas[a]).deck = .lashed ∧ LeadWork s a)) : unlashTest s a = s :=
  if_neg (mt (unlashDue_iff s a).1 spared)

theorem unlashTest_of_due (due : (s.areas[a]).deck = .lashed ∧ LeadWork s a) :
    unlashTest s a = dispatchPass (queueJob a .unlash .unlashQueued s) := if_pos ((unlashDue_iff s a).2 due)

theorem queueJob_records (k : JobKind) (c : AreaCause) (s : State) (i : CraneNo) :
    queueNumbers (queueJob a k c s) i = queueNumbers s i ∧ ∀ r' ∈ (queueJob a k c s).queues[i], ∃ r ∈ s.queues[i],
      r' = { r with state := r'.state, readyTime := r'.readyTime } ∧ (r.busy = true ∨ ¬DeckIn s r a → r' = r) ∧
      (r.busy = false → DeckIn s r a → r'.state = .pending) := by
  have queue : (queueJob a k c s).queues[i] = (s.queues[i]).map (anew (deckWritten a k.waiting s) (deckAreas s) a) := by
    rw [queueJob_eq]
    exact Vector.ofFn_get ..
  refine ⟨queueNumbers_map queue (anew_number _ _), fun r' mem => ?_⟩
  rw [queue] at mem
  obtain ⟨r, old, rfl⟩ := List.mem_map.1 mem
  refine ⟨r, old, anew_same .., fun spared => ?_, fun idle work => ?_⟩
  · exact anew_of_spared (spared.imp_right (mt (mem_deckAreas_iff s r a).1))
  · have deck : a ∈ deckAreas s r := (mem_deckAreas_iff s r a).2 work
    rw [anew_of_concerned idle deck, evaluateRecord_of_shut (s := deckWritten a k.waiting s) deck]
    rw [deckWritten_get, if_pos rfl]
    exact waiting_shut k

/-! ### A parameter written (R174) -/

/-- The parameters with value `w` written, and WIND_RESUME lowered where it is WIND_STOP. -/
def paramsWritten (i : Config.Param) (w : Nat) (s : State) : Vector Nat 40 :=
  if i = Config.WIND_STOP then
    (s.params.set i w).set Config.WIND_RESUME (min (par s Config.WIND_RESUME) (w - 10))
  else s.params.set i w

/-- The state with value `w` of a parameter other than LASH_LEAD written, and its effects. -/
def paramWritten (i : Config.Param) (w : Nat) (s : State) : State :=
  { s with
    params := paramsWritten i w s
    cranes :=
      if i = Config.QUAY_LEN then
        Vector.ofFn fun k => { s.cranes[k] with position := (s.cranes[k]).position.map fun p => min p w }
      else s.cranes
    cycles :=
      if i = Config.CYCLE_MIN ∨ i = Config.CYCLE_MAX then
        Vector.ofFn fun k =>
          ⟨clamp (16 * (paramsWritten i w s)[Config.CYCLE_MIN]) (16 * (paramsWritten i w s)[Config.CYCLE_MAX])
              (s.cycles[k]).single,
            clamp (16 * (paramsWritten i w s)[Config.CYCLE_MIN]) (16 * (paramsWritten i w s)[Config.CYCLE_MAX])
              (s.cycles[k]).dual⟩
      else s.cycles }

theorem paramsWritten_of_ne {i : Config.Param} (other : i ≠ Config.WIND_STOP) (w : Nat) (s : State) :
    paramsWritten i w s = s.params.set i w := if_neg other

theorem paramEffects_eq {i : Config.Param} (other : i ≠ Config.LASH_LEAD) (old w : Nat) (s : State) :
    paramEffects i old (setParam i w s) = paramWritten i w s := by
  unfold paramEffects paramWritten
  by_cases quay : i = Config.QUAY_LEN
  · subst quay
    rw [if_pos rfl, if_pos rfl, if_neg (by decide), paramsWritten_of_ne (by decide), lowerPositions, setParam_par]
    rfl
  by_cases cycle : i = Config.CYCLE_MIN ∨ i = Config.CYCLE_MAX
  · have wind : i ≠ Config.WIND_STOP := by rcases cycle with rfl | rfl <;> decide
    rw [if_neg quay, if_neg quay, if_neg other, if_pos cycle, if_pos cycle, paramsWritten_of_ne wind]
    rfl
  by_cases wind : i = Config.WIND_STOP
  · subst wind
    rw [if_neg quay, if_neg quay, if_neg other, if_neg cycle, if_neg cycle, if_pos rfl, setParam_par, setParam_par]
    rfl
  · rw [if_neg quay, if_neg quay, if_neg other, if_neg cycle, if_neg cycle, if_neg wind, paramsWritten_of_ne wind]
    rfl

theorem writeParam_of_other {i : Config.Param} (other : i ≠ Config.LASH_LEAD) (v : Nat) (s : State) :
    writeParam i v s = paramWritten i (writtenValue s i v) s := paramEffects_eq other ..

/-- The areas with deck work among the leading records, cranes in quay order. -/
def leadAreas (s : State) : List AreaNo := cranes.flatMap fun k => (leading s k).flatMap (deckAreas s)

theorem mem_leadAreas_iff (s : State) (a : AreaNo) : a ∈ leadAreas s ↔ LeadWork s a := by
  simp [leadAreas, cranes, leading, LeadWork, mem_deckAreas_iff]

theorem paramEffects_lead (old w : Nat) (s : State) : paramEffects Config.LASH_LEAD old (setParam Config.LASH_LEAD w s) =
    if w = old then setParam Config.LASH_LEAD w s else leadTests (setParam Config.LASH_LEAD w s) := by
  unfold paramEffects
  rw [if_neg (by decide), if_pos rfl, setParam_par, if_pos rfl]

theorem setParam_self (i : Config.Param) (s : State) : setParam i (par s i) s = s := by
  unfold setParam par
  rw [show s.params.set i s.params[i] = s.params from Vector.set_getElem_self ..]

theorem writeParam_lead_same {v : Nat} (same : writtenValue s Config.LASH_LEAD v = par s Config.LASH_LEAD) :
    writeParam Config.LASH_LEAD v s = s := by
  have written := paramEffects_lead (par s Config.LASH_LEAD) (writtenValue s Config.LASH_LEAD v) s
  rw [if_pos same, same, setParam_self] at written
  rw [show writeParam Config.LASH_LEAD v s = paramEffects Config.LASH_LEAD (par s Config.LASH_LEAD)
    (setParam Config.LASH_LEAD (writtenValue s Config.LASH_LEAD v) s) from rfl, same, setParam_self, written]

theorem writeParam_lead_new {v : Nat} (new : writtenValue s Config.LASH_LEAD v ≠ par s Config.LASH_LEAD) :
    writeParam Config.LASH_LEAD v s = leadTests (setParam Config.LASH_LEAD (writtenValue s Config.LASH_LEAD v) s) :=
  (paramEffects_lead ..).trans (if_neg new)

theorem writeParam_uplinkFree (i : Config.Param) (v : Nat) : UplinkFree (writeParam i v) := by
  intro u s
  by_cases lead : i = Config.LASH_LEAD
  · subst lead
    by_cases same : writtenValue s Config.LASH_LEAD v = par s Config.LASH_LEAD
    · rw [writeParam_lead_same same, writeParam_lead_same (s := withUplink u s) same]
    · rw [writeParam_lead_new same, writeParam_lead_new (s := withUplink u s) same]
      exact leadTests_uplinkFree u (setParam Config.LASH_LEAD (writtenValue s Config.LASH_LEAD v) s)
  · rw [writeParam_of_other lead, writeParam_of_other lead]
    rfl

/-! ### The tests (R174) -/

theorem noCode_iff (i : Config.Param) (v : Nat) :
    (coded i ∧ ¬((Config.paramTable[i]).low ≤ v ∧ v ≤ (Config.paramTable[i]).high)) ↔
      (i = Config.ANSWER_MODE ∧ 1 < v) ∨ ((i = Config.UPLINK_PARITY ∨ i = Config.FIELD_PARITY) ∧ 2 < v) := by
  have answer : Config.paramTable[Config.ANSWER_MODE] = ⟨0, 1, 1⟩ := rfl
  have uplink : Config.paramTable[Config.UPLINK_PARITY] = ⟨0, 2, 0⟩ := rfl
  have field : Config.paramTable[Config.FIELD_PARITY] = ⟨0, 2, 1⟩ := rfl
  unfold coded
  rw [decide_eq_true_eq]
  constructor
  · rintro ⟨rfl | rfl | rfl, outside⟩
    · rw [answer] at outside
      exact .inl ⟨rfl, by simp only at outside; omega⟩
    · rw [uplink] at outside
      exact .inr ⟨.inl rfl, by simp only at outside; omega⟩
    · rw [field] at outside
      exact .inr ⟨.inr rfl, by simp only at outside; omega⟩
  · rintro (⟨rfl, high⟩ | ⟨rfl | rfl, high⟩)
    · exact ⟨.inl rfl, by rw [answer]; simp only; omega⟩
    · exact ⟨.inr (.inl rfl), by rw [uplink]; simp only; omega⟩
    · exact ⟨.inr (.inr rfl), by rw [field]; simp only; omega⟩

theorem anyBusy_iff (s : State) : anyBusy s = true ↔ ∃ r ∈ pool s, r.state = .staged ∨ r.state = .active := by
  simp [anyBusy, busy_iff, or_comm]

theorem takeSetParam_of_high {n hi lo : Byte} (high : 40 ≤ n.toNat) (s : State) :
    takeSetParam [n, hi, lo] s = refuse .range s := dif_neg (Nat.not_lt.2 high)

/-- The answer to a SET_PARAM that passes its tests. -/
def paramAnswer (i : Config.Param) (v : Nat) (s : State) : Answer :=
  ⟨writeParam i v s, if clampedValue s i v = v then .accepted else .clamped, [], settingsChanged s (writeParam i v s)⟩

theorem takeSetParam_of_refused {n hi lo : Byte} {i : Config.Param} (row : n.toNat = i.val) {x : Result}
    (refused : paramRefusal s i (of16 hi lo) = some x) : takeSetParam [n, hi, lo] s = refuse x s := by
  obtain ⟨v, small⟩ := i
  obtain rfl : n.toNat = v := row
  refine (dif_pos small).trans ?_
  simp only
  rw [refused]

theorem takeSetParam_of_passed {n hi lo : Byte} {i : Config.Param} (row : n.toNat = i.val)
    (passed : paramRefusal s i (of16 hi lo) = none) : takeSetParam [n, hi, lo] s = paramAnswer i (of16 hi lo) s := by
  obtain ⟨v, small⟩ := i
  obtain rfl : n.toNat = v := row
  refine (dif_pos small).trans ?_
  simp only
  rw [passed]
  rfl

theorem exec_setParam {n hi lo : Byte} {i : Config.Param} (h : ToPart s t Config.kSetParam) (body : t.body = [n, hi, lo])
    (row : n.toNat = i.val) (passed : paramRefusal s i (of16 hi lo) = none) :
    exec .setParam s = .next (withUplink (answeredUplink s.uplink t
      (if writtenValue s i (of16 hi lo) = of16 hi lo then .accepted else .clamped) []
      (settingsChanged s (writeParam i (of16 hi lo) s))) (writeParam i (of16 hi lo) s)) := by
  have answered : takeSetParam t.body (popInbound s) = paramAnswer i (of16 hi lo) (popInbound s) := by
    rw [body]
    refine takeSetParam_of_passed row ?_
    rw [popInbound_withUplink]
    exact passed
  refine congrArg Host.Outcome.next ((management_answered h (by decide) answered
    (uplinkFree_kept (writeParam_uplinkFree i _) s)).trans ?_)
  have written : writeParam i (of16 hi lo) (popInbound s) = withUplink (takenUplink s.uplink) (writeParam i (of16 hi lo) s) := by
    rw [popInbound_withUplink]
    exact writeParam_uplinkFree i _ _ s
  unfold paramAnswer
  simp only [written]
  rw [popInbound_withUplink]
  rfl

theorem uplinkSettings_lead (w : Nat) (s : State) :
    uplinkSettings (paramsWritten Config.LASH_LEAD w s) = uplinkSettings s.params := by
  rw [paramsWritten_of_ne (by decide)]
  unfold uplinkSettings
  rw [Vector.get_set, Vector.get_set, Vector.get_set, if_neg (by decide), if_neg (by decide), if_neg (by decide)]

theorem settingsChanged_of_same {u : State} (same : uplinkSettings u.params = uplinkSettings s.params) :
    settingsChanged s u = none := if_pos same

theorem leadTests_quiet (s : State) : QReach s (leadTests s) := QReach.foldl _ unlashTest_quiet _ _

/-- Settles O41: the unlash test, the tests of SET_PARAM, and the value written with its effects. -/
theorem setParamWritesClamped : Obligations.SetParamWritesClamped := by
  refine ⟨fun s a => ⟨unlashTest_of_not_due, fun due => ⟨_, unlashTest_of_due due, ?_, queueJob_records _ _ _⟩⟩,
    fun s t h => ⟨fun long => ?_, fun n hi lo body => ⟨fun high => ?_, fun i row => ?_⟩⟩⟩
  · rw [queueJob_eq, due.1]
    rfl
  · refine congrArg Host.Outcome.next (management_refused h (by decide) ?_)
    unfold takeSetParam
    split
    · next eq => exact absurd (congrArg List.length eq) long
    · rfl
  · exact congrArg Host.Outcome.next (management_refused h (by decide) (by rw [body]; exact takeSetParam_of_high high _))
  · intro v w noCode collides params low high uplink
    have refused {x : Result} (refuses : paramRefusal s i v = some x) :
        exec .setParam s = .next (answeredOnly s t x) := by
      refine congrArg Host.Outcome.next (management_refused h (by decide) ?_)
      rw [body, popInbound_withUplink]
      exact takeSetParam_of_refused row refuses
    have passed (fine : ¬noCode) (alone : ¬collides) : paramRefusal s i v = none := by
      unfold paramRefusal
      rw [if_neg (mt (noCode_iff i v).1 fine), if_neg]
      exact fun ⟨sep, new, busy⟩ => alone ⟨sep, new, (anyBusy_iff s).1 busy⟩
    refine ⟨fun outside => ?_, fun fine clash => ?_, fun fine alone other => ?_, fun lead => ?_⟩
    · exact refused (if_pos ((noCode_iff i v).2 outside))
    · obtain ⟨sep, new, busy⟩ := clash
      exact refused ((if_neg (mt (noCode_iff i v).1 fine)).trans (if_pos ⟨sep, new, (anyBusy_iff s).2 busy⟩))
    · rw [exec_setParam h body row (passed fine alone), writeParam_of_other other]
      rfl
    · subst lead
      intro p
      have fine : ¬noCode := by
        rintro (⟨eq, _⟩ | ⟨eq | eq, _⟩) <;> exact absurd eq (by decide)
      have alone : ¬collides := fun ⟨eq, _⟩ => absurd eq (by decide)
      have answered := exec_setParam h body row (passed fine alone)
      have settings : uplinkSettings params = uplinkSettings s.params := uplinkSettings_lead w s
      refine ⟨fun same => ?_, fun new => ⟨leadAreas p, mem_leadAreas_iff p, ?_, ?_⟩⟩
      · rw [answered, writeParam_lead_same same, settingsChanged_of_same rfl]
        simp only [uplink, if_pos settings]
        rfl
      · rw [answered, writeParam_lead_new new, settingsChanged_of_same]
        · simp only [uplink, if_pos settings]
          rfl
        · exact (congrArg uplinkSettings (QReach.workFrame (leadTests_quiet p)).params).trans settings
      · exact (QReach.workFrame (leadTests_quiet p)).withUplink uplink

end Sys2Proof.Machine


/-! PROOFS. The presence filter (R91, R94). -/

namespace Sys2Proof.Machine

variable {s : State} {l : LaneNo}

theorem raw_eq (level low : Bool) : (level != low) = if low then !level else level := by cases level <;> cases low <;> rfl

theorem settles_of_agreeing {x : Lane} {raw : Bool} (agrees : raw = x.present) (now : Clock) : settles now x raw = false := by
  unfold settles nextCandidate
  rw [if_pos agrees]
  rfl

theorem settles_of_differing {x : Lane} {raw : Bool} (differs : raw ≠ x.present) (now : Clock) :
    settles now x raw = decide (x.settle ≤ age now (x.candidate.getD now)) := by
  unfold settles nextCandidate
  rw [if_neg differs]
  rfl

/-- The filter of a level that agrees with the filtered presence. -/
theorem filterLane_of_agreeing {level raw : Bool} (polarity : (level != (s.lanes[l]).activeLow) = raw)
    (agrees : raw = (s.lanes[l]).present) :
    filterLane l level s = { s with lanes := s.lanes.set l { s.lanes[l] with candidate := none } } := by
  unfold filterLane
  simp only [polarity, settles_of_agreeing agrees]
  unfold nextCandidate
  rw [if_pos agrees]
  rfl

/-- The filter of a level that differs and has not stood for the settle time. -/
theorem filterLane_of_young {level raw : Bool} (polarity : (level != (s.lanes[l]).activeLow) = raw)
    (differs : raw ≠ (s.lanes[l]).present)
    (young : ¬(s.lanes[l]).settle ≤ age s.clock ((s.lanes[l]).candidate.getD s.clock)) :
    filterLane l level s =
      { s with lanes := s.lanes.set l { s.lanes[l] with candidate := some ((s.lanes[l]).candidate.getD s.clock) } } := by
  unfold filterLane
  simp only [polarity, settles_of_differing differs, young, decide_false]
  unfold nextCandidate
  rw [if_neg differs]
  rfl

/-- The filter of a level that differs and has stood for the settle time. -/
theorem filterLane_of_settled {level raw : Bool} (polarity : (level != (s.lanes[l]).activeLow) = raw)
    (differs : raw ≠ (s.lanes[l]).present)
    (old : (s.lanes[l]).settle ≤ age s.clock ((s.lanes[l]).candidate.getD s.clock)) :
    filterLane l level s =
      if raw then presenceRise l { s with lanes := s.lanes.set l { s.lanes[l] with present := raw, candidate := none } }
      else presenceFall l { s with lanes := s.lanes.set l { s.lanes[l] with present := raw, candidate := none } } := by
  unfold filterLane
  simp only [polarity, settles_of_differing differs, old, decide_true, if_true]
  rfl

theorem readGateStatus_of_pair (a b : Bool) :
    readGateStatus [if a then 1 else 0, if b then 1 else 0] = some (a, b) := by cases a <;> cases b <;> decide

theorem readGateStatus_of_other {body : List Byte} (other : ∀ a b : Bool, body ≠ [if a then 1 else 0, if b then 1 else 0]) :
    readGateStatus body = none := by
  have level {x : Byte} (small : x.toNat ≤ 1) : ∃ a : Bool, x = if a then 1 else 0 := by
    rcases Nat.le_one_iff_eq_zero_or_eq_one.1 small with zero | one
    · exact ⟨false, BitVec.eq_of_toNat_eq zero⟩
    · exact ⟨true, BitVec.eq_of_toNat_eq one⟩
  unfold readGateStatus
  split
  · next x y =>
    refine if_neg fun ⟨smallX, smallY⟩ => ?_
    obtain ⟨a, rfl⟩ := level smallX
    obtain ⟨b, rfl⟩ := level smallY
    exact other a b rfl
  · rfl

/-- Settles O22: the filter in its three cases, and the reply of two levels. -/
theorem presenceFilterSettles : Obligations.PresenceFilterSettles := by
  refine ⟨fun l level s => ?_, fun u s body e o even odd => ⟨fun a b pair => ?_, fun other => ?_⟩⟩
  · intro x raw start put settled t
    have filtered : filterLane l level s = t := by
      by_cases agrees : raw = x.present
      · simp only [t, if_pos agrees]
        exact filterLane_of_agreeing (raw_eq ..) agrees
      · by_cases old : x.settle ≤ age s.clock start
        · simp only [t, if_neg agrees, if_pos old]
          exact filterLane_of_settled (raw_eq ..) agrees old
        · simp only [t, if_neg agrees, if_neg old]
          exact filterLane_of_young (raw_eq ..) agrees old
    rw [← filtered, ← setSlot_eq_slotWritten]
    rfl
  · have evenLane_eq : evenLane u = e := Fin.ext even.symm
    have oddLane_eq : oddLane u = o := Fin.ext odd.symm
    unfold gateStatus
    rw [pair, readGateStatus_of_pair, evenLane_eq, oddLane_eq]
  · unfold gateStatus
    rw [readGateStatus_of_other other]

end Sys2Proof.Machine


/-! PROOFS. The reply window, misses and bad replies (R146, R147, R150). -/

namespace Sys2Proof.Machine

variable {s : State} {st : Station}

/-! ### A test of the berth state, from a state of the same berth (R131) -/

theorem testBerth_from (k : CraneNo) {s w y : State} (berth : y.berth = s.berth) (reports : y.reports = w.reports)
    (clock : y.clock = w.clock) (params : y.params = w.params) :
    testBerth (some k) y = { y with
      berth := { s.berth with
        state := if s.berth.state = .running then .running else holdState (testBerth (some k) y) }
      reports := (offered (berthReport k s (testBerth (some k) y)) w).reports } := by
  have hold : holdState (testBerth (some k) y) = holdState y := by rw [testBerth_eq]; rfl
  have told : berthReport k s (testBerth (some k) y) = berthReport k y (berthTested y) := by
    have same : (testBerth (some k) y).berth = (berthTested y).berth := by rw [testBerth_eq]
    unfold berthReport
    rw [same, berth]
  rw [hold, told, ← offered_reports_congr _ reports clock params, ← berth]
  exact testBerth_eq k y

/-! ### A miss (R150, R151) -/

theorem miss_of_few (few : (s.stations[st.index]).state = .silent ∨ (s.stations[st.index]).missed < 2) : miss st s =
    { s with stations := s.stations.set st.index ⟨(s.stations[st.index]).state, min 3 ((s.stations[st.index]).missed + 1)⟩ } := by
  refine if_neg fun ⟨third, heard⟩ => ?_
  have := few.resolve_left heard
  omega

/-- Station `st` written SILENT, with its STATION report. -/
def silenced (st : Station) (s : State) : State :=
  report (.stationSilent st (s.stations[st.index]).state) { s with stations := s.stations.set st.index ⟨.silent, 3⟩ }

theorem miss_of_third (heard : (s.stations[st.index]).state ≠ .silent) (many : 2 ≤ (s.stations[st.index]).missed) :
    miss st s = tellSilent st (silenced st s) := by
  have third : min 3 ((s.stations[st.index]).missed + 1) = 3 := by omega
  unfold miss
  simp only [third]
  exact if_pos ⟨trivial, heard⟩

/-- Crane `k` with its silence start written. -/
def silenceStarted (k : CraneNo) (c : Clock) (s : State) : State :=
  { s with cranes := s.cranes.set k { s.cranes[k] with silenceStart := some c } }

theorem tellSilent_crane (k : CraneNo) (s : State) : tellSilent (.crane k) s = testBerth (some k) (silenceStarted k s.clock s) :=
  rfl

/-- A miss does what R150 and R151 say of it. -/
theorem miss_missed (st : Station) (s : State) : Missed st s (miss st s) := by
  refine ⟨miss_of_few, fun heard many noCrane => ?_, fun k heard many crane => ?_⟩
  · rw [miss_of_third heard many]
    cases st with
    | crane k => exact absurd rfl (noCrane k)
    | gang g => rfl
    | gate u => rfl
  · subst crane
    have told : silenced (.crane k) s = { s with
        stations := s.stations.set (Station.crane k).index ⟨.silent, 3⟩
        reports := (silenced (.crane k) s).reports } := report_state _ _
    have tested := testBerth_from k (s := s) (w := silenced (.crane k) s)
      (y := silenceStarted k (silenced (.crane k) s).clock (silenced (.crane k) s)) (report_berth _ _) rfl rfl rfl
    rw [miss_of_third heard many, tellSilent_crane]
    refine tested.trans ?_
    rw [show report (.stationSilent (.crane k) (s.stations[(Station.crane k).index]).state)
      { s with stations := s.stations.set (Station.crane k).index ⟨.silent, 3⟩ } = silenced (.crane k) s from rfl]
    unfold silenceStarted
    rw [told]

/-! ### The phases of a visit (R146) -/

section
variable {v : Visit}

theorem setPhase_eq (visit : s.field.visit = some v) (p : VisitPhase) : setPhase p s =
    { s with field := { s.field with visit := some { v with phase := p } } } := by
  unfold setPhase modField
  simp only [visit, Option.map_some]

theorem pollSent_of_sending (visit : s.field.visit = some v) (phase : v.phase = .sending) : pollSent s = { s with
    field := { s.field with visit := some { v with phase := .window (par s Config.REPLY_WINDOW) } } } := by
  unfold pollSent
  rw [visit]
  simp only [phase]
  exact setPhase_eq visit _

theorem pollSent_of_other (visit : s.field.visit = some v) (phase : v.phase ≠ .sending) : pollSent s = s := by
  unfold pollSent
  rw [visit]
  simp only
  split
  · next eq => exact absurd eq phase
  all_goals rfl

theorem replyBegins_of_window {ms : Nat} (c : RxChar) (visit : s.field.visit = some v) (phase : v.phase = .window ms) :
    replyBegins c s = if c.mark = true ∧ c.stop = true ∧ parityError v.settings c = false then
      { s with field := { s.field with visit := some { v with phase := .collecting c.data } } } else s := by
  unfold replyBegins
  rw [visit]
  simp only [phase, isMark_iff, setPhase_eq visit]

theorem replyBegins_of_other (c : RxChar) (visit : s.field.visit = some v) (phase : ∀ ms, v.phase ≠ .window ms) :
    replyBegins c s = s := by
  unfold replyBegins
  rw [visit]
  simp only
  split
  · next ms eq => exact absurd eq (phase ms)
  all_goals rfl

theorem windowCloses_of_window {ms : Nat} (visit : s.field.visit = some v) (phase : v.phase = .window ms) :
    windowCloses s = miss v.station { s with field := { s.field with visit := none } } := by
  unfold windowCloses
  rw [visit]
  simp only [phase]
  rfl

theorem windowCloses_of_other (visit : s.field.visit = some v) (phase : ∀ ms, v.phase ≠ .window ms) :
    windowCloses s = s := by
  unfold windowCloses
  rw [visit]
  simp only
  split
  · next ms eq => exact absurd eq (phase ms)
  all_goals rfl

theorem fieldGapPasses_of_collecting {m : Byte} (visit : s.field.visit = some v) (phase : v.phase = .collecting m) :
    fieldGapPasses s = miss v.station
      (report (.line (.fieldBad v.station.mark .incomplete)) { s with field := { s.field with visit := none } }) := by
  unfold fieldGapPasses
  rw [visit]
  simp only [phase]
  rfl

theorem fieldGapPasses_of_other (visit : s.field.visit = some v) (phase : ∀ m, v.phase ≠ .collecting m) :
    fieldGapPasses s = s := by
  unfold fieldGapPasses
  rw [visit]
  simp only
  split
  · next m eq => exact absurd eq (phase m)
  all_goals rfl

/-- A reply that ends in a way the line allows ends the visit and is judged. -/
theorem replyEnds_of_collecting {m : Byte} {e : ReplyEnd} (visit : s.field.visit = some v) (phase : v.phase = .collecting m)
    (possible : endPossible v.settings e = true) :
    replyEnds e s = judgeReply v m e { s with field := { s.field with visit := none } } := by
  unfold replyEnds
  rw [visit]
  simp only [phase, possible, if_true]
  rfl

/-! ### Judgement (R147) -/

/-- The judgement of a whole reply whose check is right. -/
theorem judgeReply_of_complete {m kind sequence : Byte} {body : List Byte} (short : body.length ≤ 120) (s : State) :
    judgeReply v m (.telegram kind sequence body (checkOf kind sequence body)) s = judgeComplete v m kind sequence body s := by
  unfold judgeReply
  simp only
  rw [if_neg (show ¬Config.bodyCapacity < body.length from Nat.not_lt.2 short), if_neg (not_not.2 rfl)]

theorem judgeReply_of_check {m kind sequence : Byte} {body : List Byte} {x : BitVec 16} (short : body.length ≤ 120)
    (wrong : x ≠ checkOf kind sequence body) (s : State) :
    judgeReply v m (.telegram kind sequence body x) s = badReply v.station .check s := by
  unfold judgeReply
  simp only
  rw [if_neg (show ¬Config.bodyCapacity < body.length from Nat.not_lt.2 short), if_pos wrong]

end

/-- Settles O53: each phase of the visit at its command, and each way of judging a reply through `miss_missed`. -/
theorem repliesMissedBadOrPassedUp : Obligations.RepliesMissedBadOrPassedUp := by
  refine ⟨fun s awoken => ⟨fun c idle => ?_, fun v visit => ⟨fun sending => ?_, fun other => ?_, fun c ms window => ?_,
    fun ms window => ?_, fun other => ⟨?_, fun c => ?_⟩, fun m collecting => ?_, fun other => ?_⟩⟩,
    fun s v m awoken visit phase => ?_⟩
  · refine ⟨next_awake awoken ?_, next_awake awoken ?_, next_awake awoken ?_, next_awake awoken ?_⟩
    · unfold pollSent
      rw [idle]
    · unfold windowCloses
      rw [idle]
    · unfold fieldGapPasses
      rw [idle]
    · unfold replyBegins
      rw [idle]
  · exact next_awake awoken (pollSent_of_sending visit sending)
  · exact next_awake awoken (pollSent_of_other visit other)
  · exact next_awake awoken (replyBegins_of_window c visit window)
  · exact ⟨_, next_awake awoken (windowCloses_of_window visit window), miss_missed _ _⟩
  · exact next_awake awoken (windowCloses_of_other visit other)
  · exact next_awake awoken (replyBegins_of_other c visit other)
  · exact ⟨_, next_awake awoken (fieldGapPasses_of_collecting visit collecting), miss_missed _ _⟩
  · exact next_awake awoken (fieldGapPasses_of_other visit other)
  · intro st w bad
    have judged {e : ReplyEnd} {f : FieldFault} (possible : endPossible v.settings e = true)
        (fault : judgeReply v m e w = badReply st f w) : bad e f :=
      ⟨_, next_awake awoken ((replyEnds_of_collecting visit phase possible).trans fault), miss_missed _ _⟩
    refine ⟨judged rfl rfl, fun parity => judged (decide_eq_true parity) rfl, fun n long => judged (decide_eq_true long) rfl,
      judged rfl rfl, fun kind sequence body short => ?_⟩
    intro e passed
    have complete := judgeReply_of_complete (v := v) (m := m) (kind := kind) (sequence := sequence) short w
    refine ⟨fun x wrong => judged rfl (judgeReply_of_check short wrong w), fun mark => judged rfl (complete.trans (if_pos mark)),
      fun mark through => ?_, fun mark stays other => judged rfl (complete.trans ?_)⟩
    · refine next_awake awoken ((replyEnds_of_collecting visit phase rfl).trans (complete.trans ?_))
      exact (if_neg (not_not.2 mark)).trans (if_pos ((isPassThrough_iff kind).2 through))
    · exact (if_neg (not_not.2 mark)).trans ((if_neg (mt (isPassThrough_iff kind).1 stays)).trans (if_pos other))

end Sys2Proof.Machine


/-! PROOFS. What the handling of a valid reply leaves alone, operation by operation (R148). -/

namespace Sys2Proof.Machine

variable {s t u : State}

/-- The tables that the host loads, the parameters, the clock, the stations and both lines are the same. -/
structure Steady (s t : State) : Prop where
  pending : t.pending = s.pending
  clock : t.clock = s.clock
  params : t.params = s.params
  roster : t.roster = s.roster
  bays : t.bays = s.bays
  stations : t.stations = s.stations
  field : t.field = s.field
  uplink : t.uplink = s.uplink

theorem Steady.refl (s : State) : Steady s s := ⟨rfl, rfl, rfl, rfl, rfl, rfl, rfl, rfl⟩

theorem Steady.trans (h : Steady s t) (h' : Steady t u) : Steady s u :=
  ⟨h'.pending.trans h.pending, h'.clock.trans h.clock, h'.params.trans h.params, h'.roster.trans h.roster,
    h'.bays.trans h.bays, h'.stations.trans h.stations, h'.field.trans h.field, h'.uplink.trans h.uplink⟩

theorem Steady.foldl {α : Type} (f : State → α → State) (h : ∀ s a, Steady s (f s a)) :
    ∀ (as : List α) (s : State), Steady s (as.foldl f s)
  | [], s => .refl s
  | a :: as, s => (h s a).trans (Steady.foldl f h as (f s a))

theorem QReach.steady (h : QReach s t) : Steady s t :=
  have k := h.keeps
  ⟨k.pending, k.clock, k.params, k.roster, k.bays, k.stations, k.field, k.uplink⟩

theorem Steady.report (i : Items) (h : Steady s t) : Steady s (report i t) := h.trans (report_quiet i t).steady

/-! ### The state operations -/

theorem modCrane_steady (k : CraneNo) (f : Crane → Crane) (s : State) : Steady s (modCrane k f s) :=
  ⟨rfl, rfl, rfl, rfl, rfl, rfl, rfl, rfl⟩
theorem modBerth_steady (f : Berth → Berth) (s : State) : Steady s (modBerth f s) :=
  ⟨rfl, rfl, rfl, rfl, rfl, rfl, rfl, rfl⟩
theorem mapMoves_steady (f : MoveRecord → MoveRecord) (s : State) : Steady s (mapMoves f s) :=
  ⟨rfl, rfl, rfl, rfl, rfl, rfl, rfl, rfl⟩
theorem modLane_steady (l : LaneNo) (f : Lane → Lane) (s : State) : Steady s (modLane l f s) :=
  ⟨rfl, rfl, rfl, rfl, rfl, rfl, rfl, rfl⟩
theorem modGang_steady (g : GangNo) (f : Gang → Gang) (s : State) : Steady s (modGang g f s) :=
  ⟨rfl, rfl, rfl, rfl, rfl, rfl, rfl, rfl⟩
theorem setGateMark_steady (u : GateNo) (b : Bool) (s : State) : Steady s (setGateMark u b s) :=
  ⟨rfl, rfl, rfl, rfl, rfl, rfl, rfl, rfl⟩

theorem setDeck_steady (a : AreaNo) (d : Deck) (c : AreaCause) (s : State) : Steady s (setDeck a d c s) := by
  constructor <;> simp [setDeck]

/-! ### The berth -/

theorem testBerth_steady (who : Option CraneNo) (s : State) : Steady s (testBerth who s) := by
  unfold testBerth
  split
  · exact .report _ (modBerth_steady ..)
  · exact .report _ (modBerth_steady ..)
  · exact .refl s

theorem takeBack_steady (k : CraneNo) (s : State) : Steady s (takeBack k s) := by
  unfold takeBack
  split
  · exact .refl s
  · exact (mapMoves_steady ..).trans (modCrane_steady ..)

theorem markOverlap_steady (k : CraneNo) (s : State) : Steady s (markOverlap k s) := by
  unfold markOverlap
  split
  · exact .refl s
  · exact mapMoves_steady ..

theorem stopWork_steady (s : State) : Steady s (stopWork s) := by
  unfold stopWork
  refine .trans ?_ (Steady.foldl _ (fun _ _ => (testAgreement_quiet ..).steady) _ _)
  refine .trans ?_ (Steady.foldl _ (fun _ _ => markOverlap_steady ..) _ _)
  refine .trans ?_ (releaseSlots_quiet ..).steady
  exact .trans (withdrawRequests_quiet ..).steady (Steady.foldl _ (fun _ _ => takeBack_steady ..) _ _)

theorem enterHold_steady (c : BerthCause) (s : State) : Steady s (enterHold c s) :=
  .report _ ((stopWork_steady s).trans (modBerth_steady ..))

theorem addCause_steady (c : BerthCause) (s : State) : Steady s (addCause c s) := by
  unfold addCause
  split
  · exact .refl s
  · split
    · exact enterHold_steady c s
    · exact .report _ (modBerth_steady ..)

theorem windReading_steady (k : CraneNo) (w : Nat) (s : State) : Steady s (windReading k w s) := by
  have timed : Steady s (if par s Config.WIND_RESUME ≤ w then modBerth (fun b => { b with calmStart := some s.clock }) s
      else s) := by
    split
    · exact modBerth_steady ..
    · exact .refl s
  unfold windReading
  split
  · dsimp only
    split
    · exact timed.trans (addCause_steady ..)
    · exact timed
  · exact .refl s

/-! ### Records freed and directives accepted -/

theorem freeRecord_steady (k : CraneNo) (r : MoveRecord) (s : State) : Steady s (freeRecord k r s) := by
  have out : Steady s (removed k r s) := ⟨rfl, rfl, rfl, rfl, rfl, rfl, rfl, rfl⟩
  exact out.trans (QReach.steady ((deckPointsLost_quiet ..).trans (queueChanged_quiet ..)))

theorem accepted_steady (k : CraneNo) (d : PendingDirective) (way : Acceptance) (s : State) :
    Steady s (accepted k d way s) := .report _ (modCrane_steady ..)

theorem withdrawCrane_steady (k : CraneNo) (s : State) : Steady s (withdrawCrane k s) :=
  ((modCrane_steady ..).trans (testBerth_steady ..)).trans
    (QReach.steady ((releaseSlots_quiet ..).trans (withdrawRequests_quiet ..)))

theorem testAcceptance_steady (k : CraneNo) (s : State) : Steady s (testAcceptance k s) := by
  unfold testAcceptance
  split
  · exact .refl s
  · split
    · exact .refl s
    · refine .trans ?_ (accepted_steady ..)
      split
      · exact withdrawCrane_steady k s
      · exact .refl s

/-! ### The crane cycle unit -/

theorem measure_steady (k : CraneNo) (r : MoveRecord) (s : State) : Steady s (measure k r s) :=
  ⟨rfl, rfl, rfl, rfl, rfl, rfl, rfl, rfl⟩

theorem promoteStaged_steady (k : CraneNo) (s : State) : Steady s (promoteStaged k s) := by
  unfold promoteStaged
  split
  · exact modCrane_steady ..
  · exact (mapMoves_steady ..).trans (modCrane_steady ..)

theorem complete_steady (k : CraneNo) (r : MoveRecord) (s : State) : Steady s (complete k r s) := by
  have freed := Steady.report (.moveDone r.number k) ((measure_steady k r s).trans (freeRecord_steady k r _))
  have tested := (freed.trans (promoteStaged_steady k _)).trans ((testAcceptance_steady k _).trans (testBerth_steady (some k) _))
  have followed := fun t => ((testAgreement_quiet k t).trans ((evaluateMany_quiet cranes _).trans (dispatchPass_quiet _)))
  unfold complete
  refine tested.trans ?_
  dsimp only
  split
  · exact QReach.steady (followed _)
  · exact QReach.steady ((followed _).trans (callCheck_quiet ..))

theorem advance_steady (r : MoveRecord) (e : CraneEvent) (lift : Bool × Bool) (s : State) :
    Steady s (advance r e lift s) := by
  unfold advance
  split
  · exact mapMoves_steady ..
  · exact .refl s

theorem toLane_steady (r : MoveRecord) (e : CraneEvent) (s : State) : Steady s (toLane r e s) := by
  unfold toLane
  split
  · split
    · exact (laneEvent_quiet ..).steady
    · exact .refl s
  · exact .refl s

theorem reportLeft_steady (k : CraneNo) (n : MoveNo) (e : CraneEvent) (bs : List Box) (s : State) :
    Steady s (reportLeft k n e bs s) := Steady.foldl _ (fun _ _ => (report_quiet ..).steady) _ _

theorem applyEvent_steady (k : CraneNo) (r : MoveRecord) (l : Leg) (p : Progress) (x : CraneEventItem) (s : State) :
    Steady s (applyEvent k r l p x s) := by
  have moved := ((reportLeft_steady k r.number x.event (boxesLeft l p x) s).trans
    (advance_steady r x.event (liftAfter l p x) _)).trans (toLane_steady r x.event _)
  unfold applyEvent
  dsimp only
  split
  · exact moved.trans (complete_steady ..)
  · exact moved

theorem takeEvent_steady (k : CraneNo) (x : CraneEventItem) (s : State) : Steady s (takeEvent k x s) := by
  unfold takeEvent
  split
  · exact (report_quiet ..).steady
  · split
    · exact applyEvent_steady ..
    · exact (report_quiet ..).steady

theorem craneEvent_steady (k : CraneNo) (s : State) (x : CraneEventItem) : Steady s (craneEvent k s x) := by
  unfold craneEvent
  dsimp only
  split
  · exact .refl s
  · exact (modCrane_steady ..).trans (takeEvent_steady ..)
  · exact (Steady.report _ (modCrane_steady ..)).trans (takeEvent_steady ..)

theorem takePosition_steady (k : CraneNo) (pos : Nat) (s : State) : Steady s (takePosition k pos s) := by
  unfold takePosition
  dsimp only
  split
  · exact (modCrane_steady ..).trans (evaluateMany_quiet ..).steady
  · exact modCrane_steady ..

theorem takePhase_steady (k : CraneNo) (faulted : Bool) (s : State) : Steady s (takePhase k faulted s) := by
  unfold takePhase
  split
  · exact .refl s
  · dsimp only
    split
    · exact .report _ (modCrane_steady ..)
    · exact (Steady.report _ (modCrane_steady ..)).trans (evaluate_quiet ..).steady

theorem reportUnknown_steady (k : CraneNo) (before now : Option MoveNo) (s : State) :
    Steady s (reportUnknown k before now s) := by
  unfold reportUnknown
  split
  · exact .refl s
  · split
    · exact .refl s
    · exact (report_quiet ..).steady

theorem takeView_steady (k : CraneNo) (v : View) (s : State) : Steady s (takeView k v s) :=
  ((modCrane_steady ..).trans (reportUnknown_steady ..)).trans
    ((reportUnknown_steady ..).trans (testAgreement_quiet ..).steady)

theorem answerNothing_steady (k : CraneNo) (s : State) : Steady s (answerNothing k s) := by
  unfold answerNothing
  split
  · exact modCrane_steady ..
  · exact modCrane_steady ..

theorem takeJobWanted_steady (k : CraneNo) (wanted : Bool) (v : View) (s : State) :
    Steady s (takeJobWanted k wanted v s) := by
  have evaluated : Steady s (evaluate k (modCrane k (fun c => { c with jobWanted := true }) s)) :=
    (modCrane_steady ..).trans (evaluate_quiet ..).steady
  unfold takeJobWanted
  split
  · dsimp only
    split
    · exact evaluated
    · exact evaluated.trans (answerNothing_steady ..)
  · exact modCrane_steady ..

theorem craneStatus_steady (k : CraneNo) (body : List Byte) (s : State) : Steady s (craneStatus k body s) := by
  unfold craneStatus
  split
  · exact (report_quiet ..).steady
  · refine .trans ?_ ((takeView_steady ..).trans (takeJobWanted_steady ..))
    refine .trans ?_ (Steady.foldl _ (fun _ _ => craneEvent_steady ..) _ _)
    refine .trans ?_ (takePhase_steady ..)
    exact (takePosition_steady ..).trans ((modCrane_steady ..).trans (windReading_steady ..))

/-! ### Gangs -/

theorem setGangPresent_steady (a : AreaNo) (g : Option GangNo) (s : State) : Steady s (setGangPresent a g s) := by
  constructor <;> simp [setGangPresent]

theorem setJobs_steady (js : List Job) (s : State) : Steady s (setJobs js s) :=
  ⟨rfl, rfl, rfl, rfl, rfl, rfl, rfl, rfl⟩

theorem queueJob_steady (a : AreaNo) (k : JobKind) (c : AreaCause) (s : State) : Steady s (queueJob a k c s) := by
  unfold queueJob
  exact (setJobs_steady _ s).trans (setDeck_steady a k.waiting c _)

theorem jobDone_steady (g : GangNo) (j : Job) (s : State) : Steady s (jobDone g j s) := by
  unfold jobDone
  exact ((setDeck_steady ..).trans (setGangPresent_steady ..)).trans (modGang_steady ..)

theorem gangDone_steady (g : GangNo) (j : Job) (seen : Bool) (s : State) : Steady s (gangDone g j seen s) := by
  unfold gangDone
  dsimp only
  have told : Steady s (report (.gang g (.done j seen)) (jobDone g j s)) := (jobDone_steady g j s).report _
  split <;> split
  · exact told.trans (queueJob_steady _ .lash _ _)
  · exact told
  · exact told.trans (queueJob_steady _ .unlash _ _)
  · exact told

theorem takeGangEvent_steady (g : GangNo) (x : GangEventItem) (s : State) : Steady s (takeGangEvent g x s) := by
  have fault : Steady s (report (.gang g (.eventFault x.serial x.event x.area s.gangs[g].state)) s) :=
    (report_quiet ..).steady
  unfold takeGangEvent
  split
  · split
    · exact .report _ (modGang_steady ..)
    · exact fault
  · split
    · exact gangDone_steady ..
    · exact fault
  · split
    · exact gangDone_steady ..
    · exact fault
  · exact fault

theorem gangEvent_steady (g : GangNo) (s : State) (x : GangEventItem) : Steady s (gangEvent g s x) := by
  unfold gangEvent
  dsimp only
  split
  · exact .refl s
  · exact (modGang_steady ..).trans (takeGangEvent_steady ..)
  · exact (Steady.report _ (modGang_steady ..)).trans (takeGangEvent_steady ..)

theorem returnJob_steady (j : Job) (s : State) : Steady s (returnJob j s) := by
  unfold returnJob
  exact ((setJobs_steady _ s).trans (setDeck_steady ..)).trans (setGangPresent_steady ..)

theorem gangLeaves_steady (g : GangNo) (m : GangMark) (r : GangReport) (s : State) : Steady s (gangLeaves g m r s) := by
  have left (t : State) (h : Steady s t) : Steady s (report (.gang g r) (modGang g (fun x => { x with state := .off, mark := m }) t)) :=
    (h.trans (modGang_steady ..)).report _
  unfold gangLeaves
  split
  · exact left _ (returnJob_steady _ s)
  · exact left s (.refl s)

theorem takeSignedOn_steady (g : GangNo) (on : Bool) (s : State) : Steady s (takeSignedOn g on s) := by
  unfold takeSignedOn
  split
  · exact .report _ (modGang_steady ..)
  · exact .report _ (modGang_steady ..)
  · exact gangLeaves_steady ..
  · exact gangLeaves_steady ..
  all_goals exact .refl s

theorem gangStatus_steady (g : GangNo) (body : List Byte) (s : State) : Steady s (gangStatus g body s) := by
  unfold gangStatus
  split
  · exact (report_quiet ..).steady
  · exact ((Steady.foldl _ (gangEvent_steady g) _ s).trans (takeSignedOn_steady ..)).trans (gangFollow_quiet ..).steady

theorem cancelConfirmed_steady (g : GangNo) (sent : Bool) (s : State) : Steady s (cancelConfirmed g sent s) := by
  unfold cancelConfirmed
  split
  · exact modGang_steady ..
  · exact .refl s

/-! ### Gates -/

theorem presenceRise_steady (l : LaneNo) (s : State) : Steady s (presenceRise l s) := by
  unfold presenceRise
  split
  · dsimp only
    split
    · exact (setSlot_quiet ..).steady
    · exact .report _ (setSlot_quiet ..).steady
  · exact .refl s
  · exact (setSlot_quiet ..).steady
  · exact (setSlot_quiet ..).steady
  · exact .refl s
  · exact .refl s

theorem presenceFall_steady (l : LaneNo) (s : State) : Steady s (presenceFall l s) := by
  unfold presenceFall
  split
  · exact .refl s
  · exact (setSlot_quiet ..).steady
  · exact .refl s
  · exact .refl s
  · exact .report _ (setSlot_quiet ..).steady
  · exact (setSlot_quiet ..).steady

theorem filterLane_steady (l : LaneNo) (level : Bool) (s : State) : Steady s (filterLane l level s) := by
  unfold filterLane
  dsimp only
  split
  · split
    · exact (modLane_steady ..).trans (presenceRise_steady ..)
    · exact (modLane_steady ..).trans (presenceFall_steady ..)
  · exact modLane_steady ..

theorem gateLane_steady (l : LaneNo) (level : Bool) (s : State) : Steady s (gateLane l level s) := by
  unfold gateLane
  dsimp only
  split
  · exact (filterLane_steady ..).trans (setSlot_quiet ..).steady
  · exact filterLane_steady ..

theorem gateStatus_steady (u : GateNo) (body : List Byte) (s : State) : Steady s (gateStatus u body s) := by
  unfold gateStatus
  split
  · exact (report_quiet ..).steady
  · exact (gateLane_steady ..).trans (gateLane_steady ..)

/-! ### The hand-off of a reply (R148) -/

theorem handOff_steady (st : Station) (sent : Bool) (body : List Byte) (s : State) : Steady s (handOff st sent body s) := by
  cases st with
  | crane k => exact craneStatus_steady k body s
  | gang g => exact (cancelConfirmed_steady g sent s).trans (gangStatus_steady g body _)
  | gate u => exact gateStatus_steady u body s

theorem tellActive_steady (st : Station) (s : State) : Steady s (tellActive st s) := by
  cases st with
  | crane k => exact ((modCrane_steady ..).trans (testBerth_steady ..)).trans (evaluate_quiet ..).steady
  | gang g =>
    unfold tellActive
    dsimp only
    split
    · exact (dispatchPass_quiet s).steady
    · exact .refl s
  | gate u => exact ((modLane_steady ..).trans (modLane_steady ..)).trans (setGateMark_steady ..)

end Sys2Proof.Machine


/-! PROOFS. A valid reply and its hand-off (R148, R151). -/

namespace Sys2Proof.Machine

variable {s : State} {st : Station}

/-- The visit is over, and its station ACTIVE with no misses; a station that was SILENT is reported as returned. -/
def answered (st : Station) (s : State) : State :=
  { s with
    field := { s.field with visit := none }
    stations := s.stations.set st.index ⟨.active, 0⟩
    reports := if (s.stations[st.index]).state = .silent then (report (.stationReturned st .silent) s).reports
      else s.reports }

theorem stationAnswers_eq (st : Station) (s : State) :
    stationAnswers st { s with field := { s.field with visit := none } } =
      if (s.stations[st.index]).state = .active then answered st s else tellActive st (answered st s) := by
  unfold stationAnswers answered
  cases was : (s.stations[st.index]).state with
  | active =>
    simp only [was, if_true, reduceCtorEq, if_false]
    rfl
  | unknown =>
    simp only [was, reduceCtorEq, if_false]
    rfl
  | silent =>
    simp only [was, reduceCtorEq, if_true, if_false]
    exact congrArg (tellActive st) (report_of_same _ rfl rfl rfl)

theorem answered_steady (st : Station) (s : State) :
    Steady (answered st s) (stationAnswers st { s with field := { s.field with visit := none } }) := by
  rw [stationAnswers_eq]
  split
  · exact .refl _
  · exact tellActive_steady ..

/-- Crane `k` with its silence start cleared. -/
def heardAgain (k : CraneNo) (s : State) : State :=
  { s with cranes := s.cranes.set k { s.cranes[k] with silenceStart := none } }

theorem tellActive_crane (k : CraneNo) (s : State) :
    tellActive (.crane k) s = evaluate k (testBerth (some k) (heardAgain k s)) := rfl

theorem tellActive_gang (g : GangNo) (s : State) :
    tellActive (.gang g) s = if (s.gangs[g]).state = .idle then dispatchPass s else s := rfl

theorem cancelConfirmed_eq (g : GangNo) {sent : Bool} {p : Prop} [Decidable p] (same : sent = true ↔ p) (s : State) :
    cancelConfirmed g sent s = if p ∧ (s.gangs[g]).mark = .cancel then
      { s with gangs := s.gangs.set g { s.gangs[g] with mark := .clear } } else s := by
  unfold cancelConfirmed
  simp only [same]
  rfl

theorem craneStatus_of_unread {k : CraneNo} {body : List Byte} (unread : readCraneStatus body = none) (s : State) :
    craneStatus k body s = report (.crane k .badReply) s := by
  unfold craneStatus
  rw [unread]

theorem gangStatus_of_unread {g : GangNo} {body : List Byte} (unread : readGangStatus body = none) (s : State) :
    gangStatus g body s = report (.gang g .badReply) s := by
  unfold gangStatus
  rw [unread]

theorem gateStatus_of_unread {u : GateNo} {body : List Byte} (unread : readGateStatus body = none) (s : State) :
    gateStatus u body s = report (.lane (.badReply u)) s := by
  unfold gateStatus
  rw [unread]

theorem gateStatus_of_read {u : GateNo} {body : List Byte} {a b : Bool} (read : readGateStatus body = some (a, b))
    (s : State) : gateStatus u body s = gateLane (oddLane u) b (gateLane (evenLane u) a s) := by
  unfold gateStatus
  rw [read]

theorem judgeComplete_of_status {v : Visit} {sequence : Byte} {body : List Byte} (s : State) :
    judgeComplete v v.station.mark (statusKind v.station) sequence body s =
      handOff v.station (v.sent.any fun t => decide (t.kind = Config.kGangJob ∧ t.body = [0])) body
        (stationAnswers v.station s) := by
  have status : Config.isPassThrough (statusKind v.station) = false := by
    cases v.station <;> rfl
  unfold judgeComplete
  simp only [ne_eq, not_true, if_false, status, Bool.false_eq_true]

theorem heardAgain_tested (k : CraneNo) (s : State) : testBerth (some k) (heardAgain k (answered (.crane k) s)) =
    { (answered (.crane k) s) with
      cranes := s.cranes.set k { s.cranes[k] with silenceStart := none }
      berth := { s.berth with
        state := if s.berth.state = .running then .running
          else holdState (testBerth (some k) (heardAgain k (answered (.crane k) s))) }
      reports := (offered (berthReport k s (testBerth (some k) (heardAgain k (answered (.crane k) s))))
        (answered (.crane k) s)).reports } :=
  testBerth_from k (s := s) (w := answered (.crane k) s) (y := heardAgain k (answered (.crane k) s)) rfl rfl rfl rfl

/-- Settles O54: the reply is judged valid, its station answers (`stationAnswers_eq`), and its owner takes it. -/
theorem validReplyTaken : Obligations.ValidReplyTaken := by
  intro s v sequence body awoken visit phase short st x kind e w
  have w_eq : w = answered st s := rfl
  have judged : exec (.fieldReplyEnd e) s =
      .next (handOff st (v.sent.any fun t => decide (t.kind = Config.kGangJob ∧ t.body = [0])) body
        (stationAnswers st { s with field := { s.field with visit := none } })) := by
    refine next_awake awoken ((replyEnds_of_collecting visit phase rfl).trans ?_)
    rw [judgeReply_of_complete short]
    exact judgeComplete_of_status _
  rw [judged, stationAnswers_eq]
  rw [w_eq]
  obtain ⟨station, _, sentNow, _⟩ := v
  refine ⟨⟨_, rfl, ?_⟩, fun k crane => ?_, fun g gang => ?_, fun u gate => ?_⟩
  · have kept := (answered_steady st s).trans (handOff_steady st
      (sentNow.any fun t => decide (t.kind = Config.kGangJob ∧ t.body = [0])) body _)
    rw [stationAnswers_eq] at kept
    exact ⟨kept.stations, kept.field, kept.uplink, kept.clock, kept.params, kept.roster, kept.bays, kept.pending⟩
  · obtain rfl : station = .crane k := crane
    by_cases active : x.state = .active
    · refine ⟨answered (.crane k) s, fun _ => rfl, fun silent => absurd active silent, ?_⟩
      rw [if_pos active, if_pos active]
      exact ⟨fun unread => congrArg Host.Outcome.next (craneStatus_of_unread unread _), rfl⟩
    · refine ⟨testBerth (some k) (heardAgain k (answered (.crane k) s)), fun heard => absurd heard active,
        fun _ => heardAgain_tested k s, ?_⟩
      rw [if_neg active, if_neg active, tellActive_crane]
      exact ⟨fun unread => congrArg Host.Outcome.next (craneStatus_of_unread unread _), rfl⟩
  · obtain rfl : station = .gang g := gang
    have sent : (sentNow.any fun t => decide (t.kind = Config.kGangJob ∧ t.body = [0])) = true ↔
        ∃ t ∈ sentNow, t.kind = 0x43 ∧ t.body = [0] := by
      simp only [List.any_eq_true, decide_eq_true_eq]
      rfl
    intro y z
    have y_eq : y = if x.state = .active then answered (.gang g) s else tellActive (.gang g) (answered (.gang g) s) := by
      rw [tellActive_gang, ← ite_not, ← ite_and]
      rfl
    rw [← y_eq]
    clear_value y
    refine ⟨fun unread => congrArg Host.Outcome.next ?_, congrArg Host.Outcome.next ?_⟩
    · refine (gangStatus_of_unread unread _).trans ?_
      rw [cancelConfirmed_eq g sent]
    · exact congrArg (gangStatus g body) (cancelConfirmed_eq g sent y)
  · obtain rfl : station = .gate u := gate
    intro z
    have z_eq : z = if x.state = .active then answered (.gate u) s else tellActive (.gate u) (answered (.gate u) s) :=
      rfl
    rw [← z_eq]
    exact ⟨fun unread => congrArg Host.Outcome.next (gateStatus_of_unread unread z),
      fun a b read => congrArg Host.Outcome.next (gateStatus_of_read read z)⟩

end Sys2Proof.Machine


/-! PROOFS. Slots released, one and several (R95, R96). -/

namespace Sys2Proof.Machine

variable {s t : State} {l : LaneNo} {k : CraneNo}

/-! ### One slot -/

/-- The slot of lane `l` is released and the hold of its move `m` cleared. -/
def holdReleased (l : LaneNo) (m : MoveNo) (s : State) : State :=
  modMove m (fun r => { r with lane := none, called := false }) (slotWritten l (releasedSlot (s.lanes[l]).slot) s)

theorem releaseSlot_of_unnamed (unnamed : (s.lanes[l]).slot.move = none) (c : ReleaseCause) : releaseSlot c s l = s := by
  unfold releaseSlot
  split
  · rfl
  · rfl
  all_goals next m eq => rw [eq] at unnamed; cases unnamed

theorem releaseSlot_of_named {m : MoveNo} (named : (s.lanes[l]).slot.move = some m) (c : ReleaseCause) :
    releaseSlot c s l = offered (cancelReport l c (s.lanes[l]).slot) (holdReleased l m s) := by
  unfold releaseSlot
  split
  · next eq => rw [eq] at named; cases named
  · next eq => rw [eq] at named; cases named
  all_goals
    next n eq =>
    rw [eq] at named
    cases named
    unfold holdReleased
    rw [eq, setSlot_eq_slotWritten]
    rfl

/-- A record whose hold on a slot is cleared where the slot names it. -/
def clearedFor (named : Option MoveNo) (r : MoveRecord) : MoveRecord :=
  if named = some r.number then { r with lane := none, called := false } else r

theorem clearedFor_number (named : Option MoveNo) (r : MoveRecord) : (clearedFor named r).number = r.number := by
  unfold clearedFor
  split <;> rfl

theorem releasedSlot_of_unnamed {x : Slot} (unnamed : x.move = none) : releasedSlot x = x := by
  cases x with
  | free stray => rfl
  | worked => rfl
  | reserved m => cases unnamed
  | called m => cases unnamed
  | arrived m => cases unnamed

theorem cancelReport_of_unnamed {x : Slot} (unnamed : x.move = none) (l : LaneNo) (c : ReleaseCause) :
    cancelReport l c x = [] := by
  cases x with
  | free stray => rfl
  | worked => rfl
  | reserved m => cases unnamed
  | called m => cases unnamed
  | arrived m => cases unnamed

/-- A lane whose slot is released from its move. -/
def laneFreed (x : Lane) : Lane := { x with slot := releasedSlot x.slot }

theorem laneFreed_of_unnamed {x : Lane} (unnamed : x.slot.move = none) : laneFreed x = x := by
  unfold laneFreed
  rw [releasedSlot_of_unnamed unnamed]

theorem slotWritten_lanes (l : LaneNo) (x : Slot) (s : State) :
    (slotWritten l x s).lanes = s.lanes.set l { s.lanes[l] with slot := x } := by
  unfold slotWritten
  dsimp only
  split <;> rfl

/-- A lane with its slot written. -/
def laneWith (x : Slot) (y : Lane) : Lane := { y with slot := x }

theorem slotWritten_gateMarks (l : LaneNo) (x : Slot) (s : State) (u : GateNo) : (slotWritten l x s).gateMarks[u] =
    (s.gateMarks[u] || decide (gateOf l = u ∧ (laneWith x s.lanes[l]).signal ≠ (s.lanes[l]).signal)) := by
  have written : (modLane l (fun y => { y with slot := x }) s).lanes[l] = laneWith x s.lanes[l] := by
    rw [modLane_get, if_pos rfl]
    rfl
  rw [← setSlot_eq_slotWritten]
  unfold setSlot
  dsimp only
  rw [written]
  by_cases same : (laneWith x s.lanes[l]).signal = (s.lanes[l]).signal
  · rw [if_pos same, decide_eq_false (fun h => h.2 same), Bool.or_false]
    rfl
  · rw [if_neg same, setGateMark_get]
    by_cases here : u = gateOf l
    · rw [if_pos here, decide_eq_true ⟨here.symm, same⟩, Bool.or_true]
    · rw [if_neg here, decide_eq_false (fun h => here h.1.symm), Bool.or_false]
      rfl

theorem slotWritten_state (l : LaneNo) (x : Slot) (s : State) : slotWritten l x s = { s with
    lanes := (slotWritten l x s).lanes, gateMarks := (slotWritten l x s).gateMarks } := by
  unfold slotWritten
  dsimp only
  split <;> rfl

theorem releaseSlot_lanes (c : ReleaseCause) (s : State) (l j : LaneNo) :
    (releaseSlot c s l).lanes[j] = if j = l then laneFreed s.lanes[l] else s.lanes[j] := by
  cases named : (s.lanes[l]).slot.move with
  | none =>
    rw [releaseSlot_of_unnamed named, laneFreed_of_unnamed named]
    split
    · next same => rw [same]
    · rfl
  | some m =>
    rw [releaseSlot_of_named named, offered_state]
    show (slotWritten l (releasedSlot (s.lanes[l]).slot) s).lanes[j] = _
    rw [slotWritten_lanes, Vector.get_set]
    rfl

theorem releaseSlot_queues (c : ReleaseCause) (s : State) (l : LaneNo) (k : CraneNo) :
    (releaseSlot c s l).queues[k] = (s.queues[k]).map (clearedFor (s.lanes[l]).slot.move) := by
  cases named : (s.lanes[l]).slot.move with
  | none =>
    rw [releaseSlot_of_unnamed named]
    exact (List.map_id' _).symm
  | some m =>
    rw [releaseSlot_of_named named, offered_state]
    show (holdReleased l m s).queues[k] = _
    unfold holdReleased
    rw [modMove, mapMoves_get, slotWritten_state]
    refine List.map_congr_left fun r _ => ?_
    unfold clearedFor
    simp only [Option.some.injEq, eq_comm]

theorem releaseSlot_gateMarks (c : ReleaseCause) (s : State) (l : LaneNo) (u : GateNo) : (releaseSlot c s l).gateMarks[u] =
    (s.gateMarks[u] || decide (gateOf l = u ∧ (laneFreed s.lanes[l]).signal ≠ (s.lanes[l]).signal)) := by
  cases named : (s.lanes[l]).slot.move with
  | none =>
    rw [releaseSlot_of_unnamed named, laneFreed_of_unnamed named]
    simp
  | some m =>
    rw [releaseSlot_of_named named, offered_state]
    exact slotWritten_gateMarks ..

theorem releaseSlot_reports (c : ReleaseCause) (s : State) (l : LaneNo) :
    (releaseSlot c s l).reports = (offered (cancelReport l c (s.lanes[l]).slot) s).reports := by
  cases named : (s.lanes[l]).slot.move with
  | none =>
    rw [releaseSlot_of_unnamed named, cancelReport_of_unnamed named]
    rfl
  | some m =>
    rw [releaseSlot_of_named named]
    unfold holdReleased
    refine offered_reports_congr _ ?_ ?_ ?_ <;> rw [slotWritten_state] <;> rfl

theorem releaseSlot_state (c : ReleaseCause) (s : State) (l : LaneNo) : releaseSlot c s l = { s with
    lanes := (releaseSlot c s l).lanes, queues := (releaseSlot c s l).queues
    gateMarks := (releaseSlot c s l).gateMarks, reports := (releaseSlot c s l).reports } := by
  cases named : (s.lanes[l]).slot.move with
  | none => rw [releaseSlot_of_unnamed named]
  | some m =>
    rw [releaseSlot_of_named named, offered_state]
    unfold holdReleased
    rw [slotWritten_state]
    rfl

/-! ### The slots of a set of lanes -/

/-- The slots of the lanes of `ls` that `freed` names are released in order. -/
def slotsFreed (c : ReleaseCause) (freed : LaneNo → Bool) (ls : List LaneNo) (s : State) : State :=
  ls.foldl (fun t l => if freed l then releaseSlot c t l else t) s

theorem slotsFreed_cons (c : ReleaseCause) (freed : LaneNo → Bool) (l : LaneNo) (ls : List LaneNo) (s : State) :
    slotsFreed c freed (l :: ls) s = slotsFreed c freed ls (if freed l then releaseSlot c s l else s) := rfl

section
variable {c : ReleaseCause} {freed : LaneNo → Bool} {ls : List LaneNo}

theorem releasedIf_lanes_of_ne {j : LaneNo} (other : j ≠ l) :
    (if freed l then releaseSlot c s l else s).lanes[j] = s.lanes[j] := by
  split
  · rw [releaseSlot_lanes, if_neg other]
  · rfl

theorem slotsFreed_lanes (distinct : ls.Nodup) (s : State) (j : LaneNo) :
    (slotsFreed c freed ls s).lanes[j] = if j ∈ ls ∧ freed j = true then laneFreed s.lanes[j] else s.lanes[j] := by
  induction ls generalizing s with
  | nil => rfl
  | cons l ls ih =>
    obtain ⟨out, distinct⟩ := List.nodup_cons.1 distinct
    rw [slotsFreed_cons, ih distinct]
    by_cases same : j = l
    · subst same
      rw [if_neg (fun h => out h.1)]
      by_cases yes : freed j = true
      · rw [if_pos yes, releaseSlot_lanes, if_pos rfl, if_pos ⟨List.mem_cons_self, yes⟩]
      · rw [if_neg yes, if_neg (fun h => yes h.2)]
    · rw [releasedIf_lanes_of_ne same]
      simp only [List.mem_cons, same, false_or]

theorem slotsFreed_reports (distinct : ls.Nodup) (s : State) : (slotsFreed c freed ls s).reports =
    (offered (ls.flatMap fun l => if freed l then cancelReport l c (s.lanes[l]).slot else []) s).reports := by
  induction ls generalizing s with
  | nil => rfl
  | cons l ls ih =>
    obtain ⟨out, distinct⟩ := List.nodup_cons.1 distinct
    have others : (ls.flatMap fun j => if freed j then
        cancelReport j c ((if freed l then releaseSlot c s l else s).lanes[j]).slot else []) =
        ls.flatMap fun j => if freed j then cancelReport j c (s.lanes[j]).slot else [] :=
      List.flatMap_congr fun j mem => by rw [releasedIf_lanes_of_ne (ne_of_mem_of_not_mem mem out)]
    rw [slotsFreed_cons, ih distinct, others, List.flatMap_cons, offered_append]
    by_cases yes : freed l = true
    · simp only [yes, if_true]
      refine offered_reports_congr _ ?_ ?_ ?_
      · exact releaseSlot_reports c s l
      · rw [releaseSlot_state, offered_state]
      · rw [releaseSlot_state, offered_state]
    · simp only [yes]
      rfl

/-- Some lane of `ls` that `freed` names has a slot that names the record. -/
def namedBy (s : State) (freed : LaneNo → Bool) (ls : List LaneNo) (r : MoveRecord) : Bool :=
  ls.any fun l => freed l && decide ((s.lanes[l]).slot.move = some r.number)

theorem slotsFreed_queues (distinct : ls.Nodup) (s : State) (k : CraneNo) : (slotsFreed c freed ls s).queues[k] =
    (s.queues[k]).map fun r => if namedBy s freed ls r then { r with lane := none, called := false } else r := by
  induction ls generalizing s with
  | nil => exact (List.map_id' _).symm
  | cons l ls ih =>
    obtain ⟨out, distinct⟩ := List.nodup_cons.1 distinct
    have others (r : MoveRecord) : namedBy (if freed l then releaseSlot c s l else s) freed ls r = namedBy s freed ls r := by
      unfold namedBy
      rw [Bool.eq_iff_iff, List.any_eq_true, List.any_eq_true]
      exact exists_congr fun j => and_congr_right fun mem => by
        rw [releasedIf_lanes_of_ne (ne_of_mem_of_not_mem mem out)]
    rw [slotsFreed_cons, ih distinct]
    simp only [others]
    by_cases yes : freed l = true
    · rw [if_pos yes, releaseSlot_queues, List.map_map]
      refine List.map_congr_left fun r _ => ?_
      have here : namedBy s freed (l :: ls) r =
          (decide ((s.lanes[l]).slot.move = some r.number) || namedBy s freed ls r) := by
        simp only [namedBy, List.any_cons, yes, Bool.true_and]
      have again : namedBy s freed ls (clearedFor (s.lanes[l]).slot.move r) = namedBy s freed ls r := by
        simp only [namedBy, clearedFor_number]
      rw [Function.comp_apply, again, here]
      unfold clearedFor
      by_cases named : (s.lanes[l]).slot.move = some r.number
      · simp only [named, if_true, decide_true, Bool.true_or, ite_self]
      · simp only [named, if_false, decide_false, Bool.false_or]
    · rw [if_neg yes]
      refine List.map_congr_left fun r _ => ?_
      simp only [namedBy, List.any_cons, yes]
      rfl

theorem releasedIf_gateMarks (u : GateNo) : (if freed l then releaseSlot c s l else s).gateMarks[u] =
    (s.gateMarks[u] || (freed l && decide (gateOf l = u ∧ (laneFreed s.lanes[l]).signal ≠ (s.lanes[l]).signal))) := by
  by_cases yes : freed l = true
  · rw [if_pos yes, yes, Bool.true_and]
    exact releaseSlot_gateMarks ..
  · rw [if_neg yes, Bool.eq_false_iff.2 yes, Bool.false_and, Bool.or_false]

theorem slotsFreed_gateMarks (distinct : ls.Nodup) (s : State) (u : GateNo) : (slotsFreed c freed ls s).gateMarks[u] =
    (s.gateMarks[u] || ls.any fun l =>
      freed l && decide (gateOf l = u ∧ (laneFreed s.lanes[l]).signal ≠ (s.lanes[l]).signal)) := by
  induction ls generalizing s with
  | nil => exact (Bool.or_false _).symm
  | cons l ls ih =>
    obtain ⟨out, distinct⟩ := List.nodup_cons.1 distinct
    have others : (ls.any fun j => freed j && decide (gateOf j = u ∧
        (laneFreed (if freed l then releaseSlot c s l else s).lanes[j]).signal ≠
          ((if freed l then releaseSlot c s l else s).lanes[j]).signal)) =
        ls.any fun j => freed j && decide (gateOf j = u ∧ (laneFreed s.lanes[j]).signal ≠ (s.lanes[j]).signal) := by
      rw [Bool.eq_iff_iff, List.any_eq_true, List.any_eq_true]
      exact exists_congr fun j => and_congr_right fun mem => by
        rw [releasedIf_lanes_of_ne (ne_of_mem_of_not_mem mem out)]
    rw [slotsFreed_cons, ih distinct, others, releasedIf_gateMarks, List.any_cons, Bool.or_assoc]

theorem slotsFreed_state (ls : List LaneNo) (s : State) : slotsFreed c freed ls s = { s with
    lanes := (slotsFreed c freed ls s).lanes, queues := (slotsFreed c freed ls s).queues
    gateMarks := (slotsFreed c freed ls s).gateMarks, reports := (slotsFreed c freed ls s).reports } := by
  induction ls generalizing s with
  | nil => rfl
  | cons l ls ih =>
    rw [slotsFreed_cons]
    split
    · rw [ih, releaseSlot_state]
    · exact ih s

end

/-! ### The slots whose moves satisfy a predicate -/

theorem findMove_of_queues {f : MoveRecord → MoveRecord} (number : ∀ r, (f r).number = r.number)
    (queues : ∀ k : CraneNo, t.queues[k] = (s.queues[k]).map f) (n : MoveNo) :
    findMove t n = (findMove s n).map fun y => (y.1, f y.2) := by
  have found (k : CraneNo) : findIn t k n = (findIn s k n).map f := by
    simp only [findIn, queues, List.find?_map, Function.comp_def, number]
  unfold findMove
  rw [List.map_findSome?]
  simp only [found, Option.map_map, Function.comp_def]

/-- The slot of lane `l` names a move that satisfies `p`. -/
def slotFreed (p : CraneNo → MoveRecord → Bool) (s : State) (l : LaneNo) : Bool :=
  (((s.lanes[l]).slot.move.bind (findMove s)).map fun y => p y.1 y.2).getD false

/-- The predicate does not read a record's hold on a slot. -/
def HoldFree (p : CraneNo → MoveRecord → Bool) : Prop := ∀ k r l, p k { r with lane := l, called := false } = p k r

section
variable {c : ReleaseCause} {p : CraneNo → MoveRecord → Bool}

theorem slotFreed_of_queues {f : MoveRecord → MoveRecord} (number : ∀ r, (f r).number = r.number)
    (queues : ∀ k : CraneNo, t.queues[k] = (s.queues[k]).map f) (same : ∀ k r, p k (f r) = p k r)
    (lane : (t.lanes[l]).slot = (s.lanes[l]).slot) : slotFreed p t l = slotFreed p s l := by
  unfold slotFreed
  rw [lane]
  cases (s.lanes[l]).slot.move with
  | none => rfl
  | some n =>
    rw [Option.bind_some, Option.bind_some, findMove_of_queues number queues]
    cases findMove s n with
    | none => rfl
    | some y => exact same y.1 y.2

theorem slotFreed_releaseSlot (free : HoldFree p) {j : LaneNo} (other : j ≠ l) :
    slotFreed p (releaseSlot c s l) j = slotFreed p s j := by
  refine slotFreed_of_queues (clearedFor_number _) (releaseSlot_queues c s l) (fun k r => ?_) ?_
  · unfold clearedFor
    split
    · exact free k r none
    · rfl
  · rw [releaseSlot_lanes, if_neg other]

theorem releaseSlots_eq (free : HoldFree p) (s : State) :
    releaseSlots c p s = slotsFreed c (slotFreed p s) lanes s := by
  suffices general : ∀ (ls : List LaneNo) (freed : LaneNo → Bool) (t : State), ls.Nodup →
      (∀ l ∈ ls, slotFreed p t l = freed l) →
      ls.foldl (fun s l => if slotFreed p s l then releaseSlot c s l else s) t = slotsFreed c freed ls t by
    refine .trans ?_ (general lanes (slotFreed p s) s (List.nodup_finRange 16) fun _ _ => rfl)
    unfold releaseSlots
    congr 1
    funext t l
    unfold slotFreed
    split
    · next k r found => rw [found]; rfl
    · next missing => rw [missing]; rfl
  intro ls freed
  induction ls with
  | nil => exact fun _ _ _ => rfl
  | cons l ls ih =>
    intro t distinct agreed
    obtain ⟨out, distinct⟩ := List.nodup_cons.1 distinct
    rw [List.foldl_cons, slotsFreed_cons, agreed l List.mem_cons_self]
    refine ih _ distinct fun j mem => ?_
    have other : j ≠ l := ne_of_mem_of_not_mem mem out
    split
    · rw [slotFreed_releaseSlot free other]
      exact agreed j (List.mem_cons_of_mem _ mem)
    · exact agreed j (List.mem_cons_of_mem _ mem)

end

end Sys2Proof.Machine


/-! PROOFS. The entry into a hold (R135). -/

namespace Sys2Proof.Machine

variable {s t : State} {k : CraneNo} {l : LaneNo}

/-! ### Staged moves taken back (R135 step 3) -/

theorem evaluateRecord_twice (s : State) (r : MoveRecord) :
    evaluateRecord s (evaluateRecord s r) = evaluateRecord s r := by
  have same : eligible s (evaluateRecord s r) = eligible s r := eligible_restated s (evaluateRecord_same s r)
  cases met : eligible s r with
  | true =>
    rw [evaluateRecord_of_eligible (same.trans met), evaluateRecord_of_eligible met]
    simp only [if_true]
  | false => rw [evaluateRecord_of_not_eligible (same.trans met), evaluateRecord_of_not_eligible met]

theorem takeBack_get (k j : CraneNo) (s : State) :
    (takeBack k s).cranes[j] = if j = k then { s.cranes[k] with staged := none } else s.cranes[j] := by
  split
  · next same => rw [same, takeBack_crane]
  · next other =>
    unfold takeBack
    split
    · rfl
    · rw [modCrane_get, if_neg other]
      rfl

theorem takeBack_queues (k j : CraneNo) (s : State) : (takeBack k s).queues[j] =
    (s.queues[j]).map fun r => if (s.cranes[k]).staged = some r.number then evaluateRecord s r else r := by
  unfold takeBack
  cases (s.cranes[k]).staged with
  | none => exact (List.map_id' _).symm
  | some n =>
    dsimp only
    rw [modCrane_queues, modMove, mapMoves_get]
    simp only [Option.some.injEq, eq_comm]

theorem takeBack_state (k : CraneNo) (s : State) :
    takeBack k s = { s with cranes := (takeBack k s).cranes, queues := (takeBack k s).queues } := by
  unfold takeBack
  split <;> rfl

theorem evaluateRecord_takeBack (k : CraneNo) (s : State) (r : MoveRecord) :
    evaluateRecord (takeBack k s) r = evaluateRecord s r := by
  refine evaluateRecord_congr ?_ ?_ ?_ r <;> rw [takeBack_state]

/-- The staged slot of a crane of `ks` holds the move's number. -/
def stagedBy (s : State) (ks : List CraneNo) (r : MoveRecord) : Bool :=
  ks.any fun k => decide ((s.cranes[k]).staged = some r.number)

/-- The staged moves of the cranes `ks` taken back. -/
def allTakenBack (ks : List CraneNo) (s : State) : State :=
  { s with
    cranes := Vector.ofFn fun k => if k ∈ ks then { s.cranes[k] with staged := none } else s.cranes[k]
    queues := Vector.ofFn fun k => (s.queues[k]).map fun r => if stagedBy s ks r then evaluateRecord s r else r }

theorem allTakenBack_cranes (ks : List CraneNo) (s : State) (k : CraneNo) : (allTakenBack ks s).cranes[k] =
    if k ∈ ks then { s.cranes[k] with staged := none } else s.cranes[k] := Vector.ofFn_get ..

theorem allTakenBack_queues (ks : List CraneNo) (s : State) (k : CraneNo) : (allTakenBack ks s).queues[k] =
    (s.queues[k]).map fun r => if stagedBy s ks r then evaluateRecord s r else r := Vector.ofFn_get ..

theorem stagedBy_takeBack (k : CraneNo) (ks : List CraneNo) (s : State) (r : MoveRecord) :
    (stagedBy (takeBack k s) ks r || decide ((s.cranes[k]).staged = some r.number)) = stagedBy s (k :: ks) r := by
  rw [Bool.eq_iff_iff, Bool.or_eq_true, stagedBy, stagedBy, List.any_eq_true, List.any_eq_true]
  simp only [decide_eq_true_eq, takeBack_get]
  constructor
  · rintro (⟨j, mem, held⟩ | held)
    · by_cases same : j = k
      · rw [if_pos same] at held
        cases held
      · rw [if_neg same] at held
        exact ⟨j, List.mem_cons_of_mem _ mem, held⟩
    · exact ⟨k, List.mem_cons_self, held⟩
  · rintro ⟨j, mem, held⟩
    by_cases same : j = k
    · exact .inr (same ▸ held)
    · exact .inl ⟨j, (List.mem_cons.1 mem).resolve_left same, by rw [if_neg same]; exact held⟩

theorem allTakenBack_cons (k : CraneNo) (ks : List CraneNo) (s : State) :
    allTakenBack (k :: ks) s = allTakenBack ks (takeBack k s) := by
  have cranes : (allTakenBack (k :: ks) s).cranes = (allTakenBack ks (takeBack k s)).cranes := by
    refine Vector.ext_get fun j => ?_
    rw [allTakenBack_cranes, allTakenBack_cranes, takeBack_get]
    by_cases same : j = k
    · subst same
      rw [if_pos List.mem_cons_self, if_pos rfl, ite_self]
    · simp only [List.mem_cons, same, false_or, if_false]
  have queues : (allTakenBack (k :: ks) s).queues = (allTakenBack ks (takeBack k s)).queues := by
    refine Vector.ext_get fun j => ?_
    rw [allTakenBack_queues, allTakenBack_queues, takeBack_queues, List.map_map]
    refine List.map_congr_left fun r _ => ?_
    have number : (if (s.cranes[k]).staged = some r.number then evaluateRecord s r else r).number = r.number := by
      split
      · exact evaluateRecord_number s r
      · rfl
    rw [Function.comp_apply, evaluateRecord_takeBack, ← stagedBy_takeBack,
      show stagedBy (takeBack k s) ks (if (s.cranes[k]).staged = some r.number then evaluateRecord s r else r) =
        stagedBy (takeBack k s) ks r by unfold stagedBy; rw [number]]
    by_cases held : (s.cranes[k]).staged = some r.number
    · simp only [held, if_true, decide_true, Bool.or_true, evaluateRecord_twice, ite_self]
    · simp only [held, if_false, decide_false, Bool.or_false]
  have rest : allTakenBack ks (takeBack k s) = { s with
      cranes := (allTakenBack ks (takeBack k s)).cranes, queues := (allTakenBack ks (takeBack k s)).queues } := by
    unfold allTakenBack
    rw [takeBack_state]
  rw [rest, ← cranes, ← queues]
  rfl

theorem foldl_takeBack (ks : List CraneNo) (s : State) : ks.foldl (fun s k => takeBack k s) s = allTakenBack ks s := by
  induction ks generalizing s with
  | nil =>
    have cranes : (allTakenBack [] s).cranes = s.cranes := Vector.ext_get fun k => allTakenBack_cranes ..
    have queues : (allTakenBack [] s).queues = s.queues :=
      Vector.ext_get fun k => (allTakenBack_queues ..).trans (List.map_id' _)
    exact (congrArg₂ (fun c q => { s with cranes := c, queues := q }) cranes queues).symm
  | cons k ks ih => rw [List.foldl_cons, ih, allTakenBack_cons]

/-! ### The hold-overlap flags (R135 step 5) -/

/-- The active slot of some crane holds the move's number. -/
def activeBy (s : State) (ks : List CraneNo) (r : MoveRecord) : Bool :=
  ks.any fun k => decide ((s.cranes[k]).active = some r.number)

theorem markOverlap_queues (k j : CraneNo) (s : State) : (markOverlap k s).queues[j] =
    (s.queues[j]).map fun r => if (s.cranes[k]).active = some r.number then { r with holdOverlap := true } else r := by
  unfold markOverlap
  cases (s.cranes[k]).active with
  | none => exact (List.map_id' _).symm
  | some n =>
    dsimp only
    rw [modMove, mapMoves_get]
    simp only [Option.some.injEq, eq_comm]

theorem markOverlap_state (k : CraneNo) (s : State) : markOverlap k s = { s with queues := (markOverlap k s).queues } := by
  unfold markOverlap
  split <;> rfl

/-- The ACTIVE moves of the cranes `ks` marked as overlapping a hold. -/
def allOverlapping (ks : List CraneNo) (s : State) : State :=
  { s with queues := Vector.ofFn fun k =>
      (s.queues[k]).map fun r => if activeBy s ks r then { r with holdOverlap := true } else r }

theorem allOverlapping_queues (ks : List CraneNo) (s : State) (k : CraneNo) : (allOverlapping ks s).queues[k] =
    (s.queues[k]).map fun r => if activeBy s ks r then { r with holdOverlap := true } else r := Vector.ofFn_get ..

theorem foldl_markOverlap (ks : List CraneNo) (s : State) :
    ks.foldl (fun s k => markOverlap k s) s = allOverlapping ks s := by
  induction ks generalizing s with
  | nil =>
    have queues : (allOverlapping [] s).queues = s.queues :=
      Vector.ext_get fun k => (allOverlapping_queues ..).trans (List.map_id' _)
    exact (congrArg (fun q => { s with queues := q }) queues).symm
  | cons k ks ih =>
    have queues : (allOverlapping ks (markOverlap k s)).queues = (allOverlapping (k :: ks) s).queues := by
      refine Vector.ext_get fun j => ?_
      rw [allOverlapping_queues, allOverlapping_queues, markOverlap_queues, List.map_map]
      refine List.map_congr_left fun r _ => ?_
      have others : activeBy (markOverlap k s) ks
          (if (s.cranes[k]).active = some r.number then { r with holdOverlap := true } else r) = activeBy s ks r := by
        unfold activeBy
        rw [markOverlap_state]
        split <;> rfl
      rw [Function.comp_apply, others, activeBy, activeBy, List.any_cons]
      by_cases held : (s.cranes[k]).active = some r.number
      · simp only [held, if_true, decide_true, Bool.true_or, ite_self]
      · simp only [held, if_false, decide_false, Bool.false_or]
    rw [List.foldl_cons, ih, show allOverlapping ks (markOverlap k s) = { s with
      queues := (allOverlapping ks (markOverlap k s)).queues } by rw [markOverlap_state]; rfl, queues]
    rfl

/-! ### Agreement tested for several cranes (R135 step 6) -/

/-- Agreement tested for the cranes `ks`. -/
def allTested (ks : List CraneNo) (s : State) : State :=
  { s with cranes := Vector.ofFn fun k =>
      if k ∈ ks then { s.cranes[k] with jobMark := agreement s k } else s.cranes[k] }

theorem allTested_cranes (ks : List CraneNo) (s : State) (k : CraneNo) : (allTested ks s).cranes[k] =
    if k ∈ ks then { s.cranes[k] with jobMark := agreement s k } else s.cranes[k] := Vector.ofFn_get ..

theorem agreement_of_marked {m : JobMark} (queues : t.queues = s.queues)
    (crane : t.cranes[k] = { s.cranes[k] with jobMark := m }) : agreement t k = agreement s k := by
  have pooled (v : View) : viewUnknown t v = viewUnknown s v := by
    unfold viewUnknown inPool findMove findIn
    rw [queues]
  unfold agreement
  rw [crane]
  simp only [pooled]

theorem foldl_testAgreement (ks : List CraneNo) (s : State) :
    ks.foldl (fun s k => testAgreement k s) s = allTested ks s := by
  induction ks generalizing s with
  | nil =>
    have cranes : (allTested [] s).cranes = s.cranes := Vector.ext_get fun k => allTested_cranes ..
    exact (congrArg (fun c => { s with cranes := c }) cranes).symm
  | cons k ks ih =>
    have cranes : (allTested ks (testAgreement k s)).cranes = (allTested (k :: ks) s).cranes := by
      refine Vector.ext_get fun j => ?_
      have written : (testAgreement k s).cranes[j] =
          if j = k then { s.cranes[k] with jobMark := agreement s k } else s.cranes[j] := modCrane_get ..
      have marked : ∃ m, (testAgreement k s).cranes[j] = { s.cranes[j] with jobMark := m } := by
        rw [written]
        split
        · next same => exact ⟨agreement s k, by rw [same]⟩
        · exact ⟨(s.cranes[j]).jobMark, rfl⟩
      obtain ⟨m, marked⟩ := marked
      rw [allTested_cranes, allTested_cranes, agreement_of_marked (t := testAgreement k s) (s := s) rfl marked, written]
      by_cases same : j = k
      · subst same
        rw [if_pos rfl, if_pos List.mem_cons_self, ite_self]
      · simp only [List.mem_cons, same, false_or, if_false]
    rw [List.foldl_cons, ih]
    exact congrArg (fun c => { s with cranes := c }) cranes

/-! ### The steps of the entry -/

theorem lanes_nodup : lanes.Nodup := List.nodup_finRange 16

/-- A move that is not ACTIVE. -/
def notActive (_ : CraneNo) (r : MoveRecord) : Bool := decide (r.state ≠ .active)

theorem notActive_holdFree : HoldFree notActive := fun _ _ _ => rfl

/-- No request stands on any lane. -/
def unrequested (s : State) : State :=
  { s with lanes := Vector.ofFn fun l => { s.lanes[l] with request := none } }

theorem withdrawRequests_all (s : State) : withdrawRequests (fun _ => true) s = unrequested s := by
  have lanes : (withdrawRequests (fun _ => true) s).lanes = (unrequested s).lanes := by
    refine Vector.ext_get fun l => ?_
    rw [withdrawRequests, mapLanes_get, unrequested, Vector.ofFn_get]
    cases (s.lanes[l]).request <;> rfl
  exact congrArg (fun v => { s with lanes := v }) lanes

theorem unrequested_lanes (s : State) (l : LaneNo) : (unrequested s).lanes[l] = { s.lanes[l] with request := none } :=
  Vector.ofFn_get ..

/-- Requests withdrawn and staged moves taken back. -/
def freedFrom (s : State) : State := allTakenBack cranes (unrequested s)

/-- And the slots of the moves that are not ACTIVE released. -/
def slotsEmptied (s : State) : State :=
  slotsFreed .berthHold (slotFreed notActive (freedFrom s)) lanes (freedFrom s)

theorem stopWork_eq (s : State) : stopWork s =
    allTested (cranes.filter fun k => (s.cranes[k]).staged.isSome) (allOverlapping cranes (slotsEmptied s)) := by
  unfold stopWork
  dsimp only
  rw [withdrawRequests_all, foldl_takeBack, foldl_testAgreement, foldl_markOverlap]
  rw [show (fun (_ : CraneNo) (r : MoveRecord) => decide (r.state ≠ .active)) = notActive from rfl,
    releaseSlots_eq notActive_holdFree]
  rfl

theorem freedFrom_queues (s : State) (k : CraneNo) : (freedFrom s).queues[k] =
    (s.queues[k]).map fun r => if stagedBy s cranes r then evaluateRecord s r else r := allTakenBack_queues ..

theorem freedFrom_lanes (s : State) (l : LaneNo) : (freedFrom s).lanes[l] = { s.lanes[l] with request := none } :=
  unrequested_lanes s l

theorem freedFrom_cranes (s : State) (k : CraneNo) : (freedFrom s).cranes[k] = { s.cranes[k] with staged := none } := by
  unfold freedFrom
  rw [allTakenBack_cranes, if_pos (show k ∈ cranes from List.mem_finRange k)]
  rfl

theorem notActive_takenBack (s : State) (k : CraneNo) (r : MoveRecord) :
    notActive k (if stagedBy s cranes r then evaluateRecord s r else r) =
      (decide (r.state ≠ .active) || stagedBy s cranes r) := by
  unfold notActive
  cases held : stagedBy s cranes r with
  | false => simp
  | true =>
    rw [if_pos rfl, evaluateRecord_state]
    split <;> simp

theorem slotFreed_freedFrom (s : State) (l : LaneNo) : slotFreed notActive (freedFrom s) l = freedByHold s l := by
  have number (r : MoveRecord) : (if stagedBy s cranes r then evaluateRecord s r else r).number = r.number := by
    split
    · exact evaluateRecord_number s r
    · rfl
  unfold slotFreed freedByHold
  rw [show ((freedFrom s).lanes[l]).slot = (s.lanes[l]).slot by rw [freedFrom_lanes]]
  cases (s.lanes[l]).slot.move with
  | none => rfl
  | some n =>
    rw [Option.bind_some, Option.bind_some, findMove_of_queues number (freedFrom_queues s)]
    cases findMove s n with
    | none => rfl
    | some y => exact notActive_takenBack s y.1 y.2

/-- What the entry into a hold makes of a record. -/
def heldRecord (s : State) (r : MoveRecord) : MoveRecord :=
  let x := if stagedBy s cranes r then evaluateRecord s r else r
  let y := if namedBy s (freedByHold s) lanes r then { x with lane := none, called := false } else x
  if activeBy s cranes r then { y with holdOverlap := true } else y

theorem heldRecord_number (s : State) (r : MoveRecord) : (heldRecord s r).number = r.number := by
  unfold heldRecord
  dsimp only
  split <;> split <;> split <;> simp only [evaluateRecord_number]

theorem slotsEmptied_queues (s : State) (k : CraneNo) : (slotsEmptied s).queues[k] = (s.queues[k]).map fun r =>
    let x := if stagedBy s cranes r then evaluateRecord s r else r
    if namedBy s (freedByHold s) lanes r then { x with lane := none, called := false } else x := by
  have freed : slotFreed notActive (freedFrom s) = freedByHold s := funext (slotFreed_freedFrom s)
  unfold slotsEmptied
  rw [slotsFreed_queues lanes_nodup, freedFrom_queues, List.map_map, freed]
  refine List.map_congr_left fun r _ => ?_
  have named : namedBy (freedFrom s) (freedByHold s) lanes (if stagedBy s cranes r then evaluateRecord s r else r) =
      namedBy s (freedByHold s) lanes r := by
    unfold namedBy
    simp only [freedFrom_lanes]
    split
    · rw [evaluateRecord_number]
    · rfl
  rw [Function.comp_apply, named]

theorem freedFrom_state (s : State) : freedFrom s = { s with
    cranes := (freedFrom s).cranes, queues := (freedFrom s).queues, lanes := (freedFrom s).lanes } := by
  simp only [freedFrom, allTakenBack, unrequested]

theorem slotsEmptied_state (s : State) : slotsEmptied s = { s with
    cranes := (freedFrom s).cranes, queues := (slotsEmptied s).queues, lanes := (slotsEmptied s).lanes
    gateMarks := (slotsEmptied s).gateMarks, reports := (slotsEmptied s).reports } := by
  have freed := slotsFreed_state (c := .berthHold) (freed := slotFreed notActive (freedFrom s)) lanes (freedFrom s)
  rw [show slotsFreed .berthHold (slotFreed notActive (freedFrom s)) lanes (freedFrom s) = slotsEmptied s from rfl] at freed
  generalize slotsEmptied s = t at freed ⊢
  refine freed.trans ?_
  rw [freedFrom_state]

theorem slotsEmptied_cranes (s : State) (k : CraneNo) : (slotsEmptied s).cranes[k] = { s.cranes[k] with staged := none } := by
  rw [slotsEmptied_state]
  exact freedFrom_cranes s k

theorem slotsEmptied_lanes (s : State) (l : LaneNo) : (slotsEmptied s).lanes[l] = { s.lanes[l] with
    slot := if freedByHold s l then releasedSlot (s.lanes[l]).slot else (s.lanes[l]).slot
    request := none } := by
  unfold slotsEmptied
  rw [slotsFreed_lanes lanes_nodup, freedFrom_lanes, slotFreed_freedFrom]
  cases freedByHold s l with
  | true =>
    rw [if_pos ⟨List.mem_finRange l, rfl⟩]
    rfl
  | false =>
    rw [if_neg (fun h => Bool.false_ne_true h.2)]
    rfl

theorem slotsEmptied_reports (s : State) : (slotsEmptied s).reports = (offered (lanes.flatMap fun l =>
    if freedByHold s l then cancelReport l .berthHold (s.lanes[l]).slot else []) s).reports := by
  have cancels : (fun l => if slotFreed notActive (freedFrom s) l then
      cancelReport l .berthHold ((freedFrom s).lanes[l]).slot else []) =
      fun l => if freedByHold s l then cancelReport l .berthHold (s.lanes[l]).slot else [] :=
    funext fun l => by rw [slotFreed_freedFrom, freedFrom_lanes]
  unfold slotsEmptied
  rw [slotsFreed_reports lanes_nodup, cancels]
  refine offered_reports_congr _ ?_ ?_ ?_ <;> rw [freedFrom_state]

end Sys2Proof.Machine


/-! PROOFS. HOLD_BERTH and the stop contact (R132, R134, R135). -/

namespace Sys2Proof.Machine

variable {s t : State} {k : CraneNo} {l : LaneNo}

theorem stopWork_queues (s : State) (k : CraneNo) : (stopWork s).queues[k] = (s.queues[k]).map (heldRecord s) := by
  rw [stopWork_eq]
  show (allOverlapping cranes (slotsEmptied s)).queues[k] = _
  rw [allOverlapping_queues, slotsEmptied_queues, List.map_map]
  refine List.map_congr_left fun r _ => ?_
  have active (x : MoveRecord) (number : x.number = r.number) :
      activeBy (slotsEmptied s) cranes x = activeBy s cranes r := by
    unfold activeBy
    simp only [slotsEmptied_cranes, number]
  rw [Function.comp_apply, active]
  · rfl
  · dsimp only
    split <;> split <;> simp only [evaluateRecord_number]

theorem stopWork_state (s : State) : stopWork s = { s with
    cranes := (stopWork s).cranes, queues := (stopWork s).queues, lanes := (slotsEmptied s).lanes
    gateMarks := (slotsEmptied s).gateMarks, reports := (slotsEmptied s).reports } := by
  rw [stopWork_eq]
  unfold allTested allOverlapping
  rw [slotsEmptied_state]

theorem agreement_allTested (ks : List CraneNo) (s : State) (k : CraneNo) :
    agreement (allTested ks s) k = agreement s k := by
  refine agreement_of_marked (m := ((allTested ks s).cranes[k]).jobMark) rfl ?_
  rw [allTested_cranes]
  split <;> rfl

theorem allOverlapping_cranes (ks : List CraneNo) (s : State) : (allOverlapping ks s).cranes = s.cranes := rfl

theorem stopWork_cranes (s : State) (k : CraneNo) : (stopWork s).cranes[k] = { s.cranes[k] with
    staged := none
    jobMark := if (s.cranes[k]).staged.isSome then agreement (stopWork s) k else (s.cranes[k]).jobMark } := by
  have here : k ∈ cranes.filter (fun k => (s.cranes[k]).staged.isSome) ↔ (s.cranes[k]).staged.isSome = true := by
    rw [List.mem_filter]
    exact and_iff_right (List.mem_finRange k)
  rw [stopWork_eq, agreement_allTested, allTested_cranes, allOverlapping_cranes, slotsEmptied_cranes]
  simp only [here]
  split <;> rfl

theorem holdState_stopWork (s : State) : holdState (stopWork s) =
    if cranes.any (fun k => decide ((s.cranes[k]).mode = .inService) && decide (stationState s (.crane k) ≠ .silent) &&
      (s.cranes[k]).active.isSome) then .holding else .held := by
  have same (k : CraneNo) : (qualifying (stopWork s) k && ((stopWork s).cranes[k]).active.isSome) =
      (decide ((s.cranes[k]).mode = .inService) && decide (stationState s (.crane k) ≠ .silent) &&
        (s.cranes[k]).active.isSome) := by
    unfold qualifying stationState
    rw [stopWork_cranes, stopWork_state]
  unfold holdState
  simp only [same]

theorem causes_add {x : Causes} (empty : x = ⟨false, false, false⟩) (c : BerthCause) :
    x.add c = ⟨decide (c = .contact), decide (c = .wind), decide (c = .command)⟩ := by
  subst empty
  cases c <;> rfl

theorem enterHold_eq (c : BerthCause) (s : State) : enterHold c s =
    report (.berth (.entered (holdState (stopWork s)) c (s.berth.causes.add c)))
      { stopWork s with berth := { s.berth with causes := s.berth.causes.add c, state := holdState (stopWork s) } } := by
  have berth : (stopWork s).berth = s.berth := by rw [stopWork_state]
  unfold enterHold
  dsimp only
  rw [show modBerth (fun b => { b with causes := b.causes.add c, state := holdState (stopWork s) }) (stopWork s) =
    { stopWork s with berth := { s.berth with causes := s.berth.causes.add c, state := holdState (stopWork s) } } by
      unfold modBerth; rw [berth]]

theorem heldRecord_of_staged {r : MoveRecord} (held : (s.cranes[k]).staged = some r.number) :
    (heldRecord s r).state = .ready ∨ (heldRecord s r).state = .pending := by
  have found : stagedBy s cranes r = true :=
    List.any_eq_true.2 ⟨k, List.mem_finRange k, decide_eq_true held⟩
  have state : (heldRecord s r).state = (evaluateRecord s r).state := by
    unfold heldRecord
    rw [found]
    dsimp only
    split <;> split <;> rfl
  rw [state, evaluateRecord_state]
  split
  · exact .inl rfl
  · exact .inr rfl

theorem heldRecord_of_active {r : MoveRecord} (held : (s.cranes[k]).active = some r.number) :
    (heldRecord s r).holdOverlap = true := by
  have found : activeBy s cranes r = true :=
    List.any_eq_true.2 ⟨k, List.mem_finRange k, decide_eq_true held⟩
  unfold heldRecord
  rw [found]
  rfl

theorem heldRecord_of_named {r : MoveRecord} (named : (s.lanes[l]).slot.move = some r.number)
    (freed : freedByHold s l = true) : (heldRecord s r).lane = none ∧ (heldRecord s r).called = false := by
  have found : namedBy s (freedByHold s) lanes r = true :=
    List.any_eq_true.2 ⟨l, List.mem_finRange l, by rw [freed, Bool.true_and]; exact decide_eq_true named⟩
  unfold heldRecord
  rw [found]
  dsimp only
  split <;> exact ⟨rfl, rfl⟩

theorem slotsEmptied_gateMarks (s : State) (u : GateNo) : (slotsEmptied s).gateMarks[u] = (s.gateMarks[u] ||
    lanes.any fun l => decide (gateOf l = u ∧ ((slotsEmptied s).lanes[l]).signal ≠ (s.lanes[l]).signal)) := by
  have marks (l : LaneNo) : (slotFreed notActive (freedFrom s) l && decide (gateOf l = u ∧
      (laneFreed (freedFrom s).lanes[l]).signal ≠ ((freedFrom s).lanes[l]).signal)) =
      decide (gateOf l = u ∧ ((slotsEmptied s).lanes[l]).signal ≠ (s.lanes[l]).signal) := by
    have before : ((freedFrom s).lanes[l]).signal = (s.lanes[l]).signal := by
      rw [freedFrom_lanes]
      rfl
    have after : ((slotsEmptied s).lanes[l]).signal =
        if freedByHold s l then (laneFreed (freedFrom s).lanes[l]).signal else (s.lanes[l]).signal := by
      rw [slotsEmptied_lanes, freedFrom_lanes]
      cases freedByHold s l <;> rfl
    rw [slotFreed_freedFrom, before, after]
    cases freedByHold s l with
    | true => rw [Bool.true_and, if_pos rfl]
    | false => simp
  have kept : (freedFrom s).gateMarks = s.gateMarks := by rw [freedFrom_state]
  conv_lhs => unfold slotsEmptied
  rw [slotsFreed_gateMarks lanes_nodup, kept]
  simp only [marks]

/-- An entry into a hold from an empty cause set does what R135 says of it. -/
theorem enterHold_entered (c : BerthCause) (empty : s.berth.causes = ⟨false, false, false⟩) :
    HoldEntered c s (enterHold c s) := by
  have state : enterHold c s = { stopWork s with
      berth := { s.berth with causes := s.berth.causes.add c, state := holdState (stopWork s) }
      reports := (enterHold c s).reports } := by
    rw [enterHold_eq, report_state]
  have queues : (enterHold c s).queues = (stopWork s).queues := by rw [state]
  have inQueue {r : MoveRecord} (hr : r ∈ pool (enterHold c s)) : ∃ r0, r = heldRecord s r0 := by
    obtain ⟨k, mem⟩ := (mem_pool_iff ..).1 hr
    rw [queues, stopWork_queues] at mem
    obtain ⟨r0, -, rfl⟩ := List.mem_map.1 mem
    exact ⟨r0, rfl⟩
  have berth : (enterHold c s).berth =
      { s.berth with causes := s.berth.causes.add c, state := holdState (stopWork s) } := by rw [state]
  have lanes : (enterHold c s).lanes = (slotsEmptied s).lanes := by
    rw [state, stopWork_state]
  have gateMarks : (enterHold c s).gateMarks = (slotsEmptied s).gateMarks := by
    rw [state, stopWork_state]
  have cranes : (enterHold c s).cranes = (stopWork s).cranes := by rw [state]
  refine {
    lanes := fun l => by rw [lanes]; exact slotsEmptied_lanes s l
    gates := fun u => ?_
    cranes := fun k => ?_
    queues := fun k => ?_
    takenBack := fun k n held r hr number => ?_
    overlap := fun k n held r hr number => ?_
    cleared := fun l n named freed r hr number => ?_
    berth := ?_
    reports := ?_
    rest := ?_ }
  · rw [lanes, gateMarks]
    exact slotsEmptied_gateMarks s u
  · have marked : agreement (enterHold c s) k = agreement (stopWork s) k :=
      agreement_of_marked (m := ((stopWork s).cranes[k]).jobMark) queues (by rw [state])
    rw [cranes, marked]
    exact stopWork_cranes s k
  · unfold queueNumbers
    rw [queues, stopWork_queues, List.map_map]
    exact List.map_congr_left fun r _ => heldRecord_number s r
  · obtain ⟨r0, rfl⟩ := inQueue hr
    rw [heldRecord_number] at number
    exact heldRecord_of_staged (number ▸ held)
  · obtain ⟨r0, rfl⟩ := inQueue hr
    rw [heldRecord_number] at number
    exact heldRecord_of_active (number ▸ held)
  · obtain ⟨r0, rfl⟩ := inQueue hr
    rw [heldRecord_number] at number
    exact heldRecord_of_named (number ▸ named) freed
  · rw [berth, causes_add empty, holdState_stopWork]
  · have reports : (stopWork s).reports = (slotsEmptied s).reports := by rw [stopWork_state]
    have clock : (stopWork s).clock = s.clock := by rw [stopWork_state]
    have params : (stopWork s).params = s.params := by rw [stopWork_state]
    rw [berth, offered_append, enterHold_eq, offered_cons, offered_nil]
    refine report_reports_congr _ ?_ ?_ ?_
    · exact reports.trans (slotsEmptied_reports s)
    · rw [offered_state]
      exact clock
    · rw [offered_state]
      exact params
  · have rest : stopWork s = { s with
        cranes := (enterHold c s).cranes, queues := (enterHold c s).queues, lanes := (enterHold c s).lanes
        gateMarks := (enterHold c s).gateMarks, reports := (stopWork s).reports } := by
      rw [cranes, queues, lanes, gateMarks]
      conv_lhs => rw [stopWork_state]
      rw [show (stopWork s).reports = (slotsEmptied s).reports by rw [stopWork_state]]
    calc enterHold c s
      _ = { stopWork s with berth := (enterHold c s).berth, reports := (enterHold c s).reports } := by
          rw [berth]
          exact state
      _ = _ := by rw [rest]

theorem addCause_entered (c : BerthCause) (empty : s.berth.causes = ⟨false, false, false⟩)
    (running : s.berth.state = .running) : HoldEntered c s (addCause c s) := by
  have lacks : s.berth.causes.has c = false := by
    rw [empty]
    cases c <;> rfl
  rw [addCause_of_running lacks running]
  exact enterHold_entered c empty

/-! ### HOLD_BERTH and the stop contact -/

theorem takeHoldBerth_done {body : List Byte} (empty : body = []) (s : State) :
    takeHoldBerth body s = accept (addCause .command s) := withEmptyBody_taken empty _

/-- Settles O10: each case of `addCause`, and `enterHold_entered` for an entry from RUNNING. -/
theorem berthHoldsEntered : Obligations.BerthHoldsEntered := by
  refine ⟨fun s t h => ⟨fun body => ?_, fun body has => ?_, fun body lacks held => ?_, fun body empty running => ?_⟩,
    fun s awoken closed raw stood running empty => ?_⟩
  · exact congrArg Host.Outcome.next (management_refused h (by decide) (withEmptyBody_refused body _))
  · have done := management_done h (by decide) (addCause_uplinkFree .command) (takeHoldBerth_done body (popInbound s))
    refine congrArg Host.Outcome.next (done.trans ?_)
    rw [addCause_of_has (c := .command) has]
    rfl
  · have done := management_done h (by decide) (addCause_uplinkFree .command) (takeHoldBerth_done body (popInbound s))
    refine congrArg Host.Outcome.next (done.trans ?_)
    rw [addCause_of_held (c := .command) lacks held]
    rfl
  · have done := management_done h (by decide) (addCause_uplinkFree .command) (takeHoldBerth_done body (popInbound s))
    refine ⟨_, congrArg Host.Outcome.next done, ?_⟩
    rw [← addCause_uplinkFree .command]
    exact addCause_entered .command empty running
  · have due := (contactDue_iff s).mpr ⟨by rw [raw, closed]; decide, stood⟩
    rw [contactDebounced_of_due awoken due, contactSettles_of_opened raw]
    refine ⟨_, rfl, ?_⟩
    exact addCause_entered .contact empty running

end Sys2Proof.Machine


/-! PROOFS. The crane status body and the parts of a crane reply (R64 to R68). -/

namespace Sys2Proof.Machine

variable {s t : State} {k : CraneNo}

/-! ### The layout of a crane status body (TABLE 55) -/

/-- The bytes of an event of a crane status body. -/
def craneEventBytes (x : CraneEventItem) : List Byte :=
  [x.serial, x.event.code, byte (x.move.toNat / 256), byte x.move.toNat, byte (x.box1.toNat + 2 * x.box2.toNat)]

/-- Every event of the list names a box. -/
def Masked (events : List CraneEventItem) : Prop := ∀ x ∈ events, x.box1 = true ∨ x.box2 = true

theorem readMask_byte {b1 b2 : Bool} (named : b1 = true ∨ b2 = true) :
    readMask (byte (b1.toNat + 2 * b2.toNat)) = some (b1, b2) := by
  revert b1 b2
  decide

theorem readMask_eq_some {m : Byte} {b1 b2 : Bool} (read : readMask m = some (b1, b2)) :
    (b1 = true ∨ b2 = true) ∧ m = byte (b1.toNat + 2 * b2.toNat) := by
  unfold readMask at read
  split at read
  · next one => cases read; exact ⟨.inl rfl, one⟩
  · split at read
    · next two => cases read; exact ⟨.inr rfl, two⟩
    · split at read
      · next three => cases read; exact ⟨.inl rfl, three⟩
      · cases read

theorem craneEvent_ofCode_code (e : CraneEvent) : CraneEvent.ofCode e.code = some e := by
  cases e <;> rfl

theorem craneEvent_code_of_ofCode {b : Byte} {e : CraneEvent} (read : CraneEvent.ofCode b = some e) : e.code = b := by
  unfold CraneEvent.ofCode at read
  split at read
  · next one => cases read; exact one.symm
  · split at read
    · next two => cases read; exact two.symm
    · split at read
      · next three => cases read; exact three.symm
      · split at read
        · next four => cases read; exact four.symm
        · cases read

theorem readCraneEvents_of_read {serial e m1 m0 mask : Byte} {event : CraneEvent} {b1 b2 : Bool} (rest : List Byte)
    (kind : CraneEvent.ofCode e = some event) (named : readMask mask = some (b1, b2)) :
    readCraneEvents (serial :: e :: m1 :: m0 :: mask :: rest) =
      (readCraneEvents rest).map (⟨serial, event, moveOf m1 m0, b1, b2⟩ :: ·) := by
  rw [readCraneEvents, kind, Option.bind_some, named]
  rfl

theorem readCraneEvents_flatMap {events : List CraneEventItem} (masked : Masked events) :
    readCraneEvents (events.flatMap craneEventBytes) = some events := by
  induction events with
  | nil => rfl
  | cons x events ih =>
    have read := readCraneEvents_of_read (serial := x.serial) (m1 := byte (x.move.toNat / 256)) (m0 := byte x.move.toNat)
      (events.flatMap craneEventBytes) (craneEvent_ofCode_code x.event) (readMask_byte (masked x List.mem_cons_self))
    rw [List.flatMap_cons]
    refine read.trans ?_
    rw [ih fun y mem => masked y (List.mem_cons_of_mem _ mem), moveOf_moveBytes]
    rfl

theorem moveBytes_of_moveOf (hi lo : Byte) :
    byte ((moveOf hi lo).toNat / 256) = hi ∧ byte (moveOf hi lo).toNat = lo := by
  have bytes := moveBytes_moveOf hi lo
  obtain ⟨high, low⟩ := List.cons.inj bytes
  exact ⟨high, (List.cons.inj low).1⟩

theorem readCraneEvents_eq_some {body : List Byte} {events : List CraneEventItem}
    (read : readCraneEvents body = some events) : Masked events ∧ body = events.flatMap craneEventBytes := by
  induction body using readCraneEvents.induct generalizing events with
  | case1 =>
    cases read
    exact ⟨fun x mem => (List.not_mem_nil mem).elim, rfl⟩
  | case2 serial e m1 m0 mask rest ih =>
    rw [readCraneEvents, Option.bind_eq_some_iff] at read
    obtain ⟨event, kind, read⟩ := read
    obtain ⟨⟨b1, b2⟩, named, read⟩ := Option.bind_eq_some_iff.1 read
    obtain ⟨others, later, rfl⟩ := Option.map_eq_some_iff.1 read
    obtain ⟨masked, bytes⟩ := ih later
    obtain ⟨box, maskByte⟩ := readMask_eq_some named
    obtain ⟨high, low⟩ := moveBytes_of_moveOf m1 m0
    refine ⟨List.forall_mem_cons.2 ⟨box, masked⟩, ?_⟩
    rw [List.flatMap_cons, ← bytes, craneEventBytes, high, low, craneEvent_code_of_ofCode kind, maskByte]
    rfl
  | case3 body empty short =>
    rw [readCraneEvents] at read
    · cases read
    · exact empty
    · exact short

theorem craneEvents_length (events : List CraneEventItem) : (events.flatMap craneEventBytes).length = 5 * events.length := by
  rw [List.length_flatMap]
  simp [craneEventBytes, Nat.mul_comm]

/-- A crane status body of TABLE 55 with these bytes and events. -/
structure CraneLayout (body : List Byte) (phase p1 p0 w1 w0 a1 a0 g1 g0 want : Byte) (events : List CraneEventItem) :
    Prop where
  phase_le : phase.toNat ≤ 3
  events_le : events.length ≤ 4
  masked : Masked events
  body_eq : body = [phase, p1, p0, w1, w0, a1, a0, g1, g0, want, byte events.length] ++ events.flatMap craneEventBytes

theorem moveOpt_moveOf (hi lo : Byte) : moveOpt (moveOf hi lo) =
    if hi = 0 ∧ lo = 0 then none else some (BitVec.ofNat 16 (256 * hi.toNat + lo.toNat)) := by
  have zero : moveOf hi lo = 0 ↔ hi = 0 ∧ lo = 0 := by
    rw [moveOf_eq_zero_iff, of16, ← toNat_eq_zero_iff, ← toNat_eq_zero_iff]
    omega
  unfold moveOpt
  simp only [zero]
  rfl

theorem readCraneStatus_of_layout {body : List Byte} {phase p1 p0 w1 w0 a1 a0 g1 g0 want : Byte}
    {events : List CraneEventItem} (layout : CraneLayout body phase p1 p0 w1 w0 a1 a0 g1 g0 want events) :
    readCraneStatus body = some ⟨decide (phase = 3), of16 p1 p0, min (of16 w1 w0) 600,
      ⟨moveOpt (moveOf a1 a0), moveOpt (moveOf g1 g0)⟩, decide (want ≠ 0), events⟩ := by
  obtain ⟨phase_le, events_le, masked, rfl⟩ := layout
  have count : (byte events.length).toNat = events.length := toNat_byte (by omega)
  show (if phase.toNat ≤ 3 ∧ (byte events.length).toNat ≤ 4 ∧
    (events.flatMap craneEventBytes).length = 5 * (byte events.length).toNat then _ else none) = _
  rw [if_pos ⟨phase_le, by rw [count]; exact events_le, by rw [count]; exact craneEvents_length events⟩]
  show (readCraneEvents (events.flatMap craneEventBytes)).map _ = _
  rw [readCraneEvents_flatMap masked]
  rfl

theorem layout_of_readCraneStatus {body : List Byte} {r : CraneStatus} (read : readCraneStatus body = some r) :
    ∃ phase p1 p0 w1 w0 a1 a0 g1 g0 want events, CraneLayout body phase p1 p0 w1 w0 a1 a0 g1 g0 want events := by
  unfold readCraneStatus at read
  split at read
  · next phase p1 p0 w1 w0 a1 a0 g1 g0 want count rest =>
    split at read
    · next fits =>
      obtain ⟨phase_le, count_le, length⟩ := fits
      obtain ⟨events, found, -⟩ := Option.map_eq_some_iff.1 read
      obtain ⟨masked, bytes⟩ := readCraneEvents_eq_some found
      rw [bytes, craneEvents_length] at length
      have number : events.length = count.toNat := by omega
      refine ⟨phase, p1, p0, w1, w0, a1, a0, g1, g0, want, events, phase_le, by omega, masked, ?_⟩
      rw [number, byte_toNat, bytes]
      rfl
    · cases read
  · cases read

theorem craneStatus_of_layout {body : List Byte} {phase p1 p0 w1 w0 a1 a0 g1 g0 want : Byte}
    {events : List CraneEventItem} (layout : CraneLayout body phase p1 p0 w1 w0 a1 a0 g1 g0 want events) (k : CraneNo)
    (s : State) : craneStatus k body s =
      takeJobWanted k (decide (want ≠ 0)) ⟨moveOpt (moveOf a1 a0), moveOpt (moveOf g1 g0)⟩
        (takeView k ⟨moveOpt (moveOf a1 a0), moveOpt (moveOf g1 g0)⟩ (events.foldl (craneEvent k)
          (takePhase k (decide (phase = 3)) (takeWind k (min (of16 w1 w0) 600) (takePosition k (of16 p1 p0) s))))) := by
  unfold craneStatus
  rw [readCraneStatus_of_layout layout]

/-! ### Position, wind and phase (R66 to R68) -/

theorem idle_iff (s : State) (k : CraneNo) :
    idle s k = true ↔ ∀ r ∈ s.queues[k], r.state ≠ .staged ∧ r.state ≠ .active := by
  unfold idle MoveRecord.busy
  rw [Bool.not_eq_true', List.any_eq_false]
  simp only [decide_eq_true_eq, not_or]

theorem qualifying_iff (s : State) (k : CraneNo) :
    qualifying s k = true ↔ (s.cranes[k]).mode = .inService ∧ stationState s (.crane k) ≠ .silent := by
  unfold qualifying
  rw [Bool.and_eq_true, decide_eq_true_eq, decide_eq_true_eq]

theorem qualifying_congr (mode : (t.cranes[k]).mode = (s.cranes[k]).mode) (stations : t.stations = s.stations) :
    qualifying t k = qualifying s k := by
  unfold qualifying stationState
  rw [mode, stations]

/-- Crane `k` with its wind written. -/
def windStored (k : CraneNo) (w : Nat) (s : State) : State :=
  { s with cranes := s.cranes.set k { s.cranes[k] with wind := w } }

/-- The calm timer restarted. -/
def calmRestarted (s : State) : State := { s with berth := { s.berth with calmStart := some s.clock } }

theorem windStored_qualifying (k : CraneNo) (w : Nat) (s : State) : qualifying (windStored k w s) k = qualifying s k := by
  refine qualifying_congr ?_ rfl
  rw [show windStored k w s = modCrane k (fun c => { c with wind := w }) s from rfl, modCrane_same]

section
variable {w : Nat}

theorem takeWind_of_uncounted (uncounted : qualifying s k = false) : takeWind k w s = windStored k w s := by
  show windReading k w (windStored k w s) = _
  unfold windReading
  rw [windStored_qualifying, uncounted]
  rfl

theorem takeWind_of_counted (counted : qualifying s k = true) : takeWind k w s =
    let t := if par s Config.WIND_RESUME ≤ w then calmRestarted (windStored k w s) else windStored k w s
    if par s Config.WIND_STOP ≤ w then addCause .wind t else t := by
  show windReading k w (windStored k w s) = _
  unfold windReading
  rw [windStored_qualifying, counted]
  rfl

theorem takeWind_of_calm (counted : qualifying s k = true) (order : par s Config.WIND_RESUME ≤ par s Config.WIND_STOP)
    (low : w < par s Config.WIND_RESUME) : takeWind k w s = windStored k w s := by
  rw [takeWind_of_counted counted]
  dsimp only
  rw [if_neg (show ¬par s Config.WIND_STOP ≤ w by omega), if_neg (show ¬par s Config.WIND_RESUME ≤ w by omega)]

theorem takeWind_of_fresh (counted : qualifying s k = true) (fresh : par s Config.WIND_RESUME ≤ w)
    (low : w < par s Config.WIND_STOP) : takeWind k w s = calmRestarted (windStored k w s) := by
  rw [takeWind_of_counted counted]
  dsimp only
  rw [if_neg (show ¬par s Config.WIND_STOP ≤ w by omega), if_pos fresh]

theorem takeWind_of_strong (counted : qualifying s k = true) (order : par s Config.WIND_RESUME ≤ par s Config.WIND_STOP)
    (strong : par s Config.WIND_STOP ≤ w) : takeWind k w s = addCause .wind (calmRestarted (windStored k w s)) := by
  rw [takeWind_of_counted counted]
  dsimp only
  rw [if_pos strong, if_pos (show par s Config.WIND_RESUME ≤ w by omega)]

end

theorem takePhase_same (k : CraneNo) (s : State) : takePhase k (s.cranes[k]).fault s = s := if_pos rfl

theorem takePhase_fault (sound : (s.cranes[k]).fault = false) :
    takePhase k true s = report (.crane k .fault) (modCrane k (fun c => { c with fault := true }) s) := by
  unfold takePhase
  rw [sound]
  rfl

theorem takePhase_clear (faulted : (s.cranes[k]).fault = true) : takePhase k false s =
    evaluate k (report (.crane k .faultCleared) (modCrane k (fun c => { c with fault := false }) s)) := by
  unfold takePhase
  rw [faulted]
  rfl

/-- Settles O55: the layout of the body read both ways, and each part of a reply at its branch. -/
theorem craneReplyTakenInOrder : Obligations.CraneReplyTakenInOrder := by
  refine ⟨fun k s body => ?_, fun k n s => ?_, fun k w s order => ?_, fun k s => ?_⟩
  · intro layout
    have form (phase p1 p0 w1 w0 a1 a0 g1 g0 want : Byte) (events : List CraneEventItem) :
        layout phase p1 p0 w1 w0 a1 a0 g1 g0 want events ↔
          CraneLayout body phase p1 p0 w1 w0 a1 a0 g1 g0 want events :=
      ⟨fun ⟨h1, h2, h3, h4⟩ => ⟨h1, h2, h3, h4⟩, fun ⟨h1, h2, h3, h4⟩ => ⟨h1, h2, h3, h4⟩⟩
    refine ⟨fun none => craneStatus_of_unread ?_ s, fun phase p1 p0 w1 w0 a1 a0 g1 g0 want events laid => ?_⟩
    · rw [Option.eq_none_iff_forall_ne_some]
      intro r read
      obtain ⟨phase, p1, p0, w1, w0, a1, a0, g1, g0, want, events, laid⟩ := layout_of_readCraneStatus read
      exact none phase p1 p0 w1 w0 a1 a0 g1 g0 want events ((form ..).2 laid)
    · rw [craneStatus_of_layout ((form ..).1 laid), moveOpt_moveOf, moveOpt_moveOf]
  · intro p t told
    have moved : told ↔ (s.cranes[k]).position ≠ some p ∧ idle s k = true := and_congr_right' (idle_iff s k).symm
    exact ⟨fun yes => if_pos (moved.1 yes), fun no => if_neg (mt moved.2 no)⟩
  · intro t u counts
    have counted : counts ↔ qualifying s k = true := (qualifying_iff s k).symm
    refine ⟨fun quiet => ?_, fun yes fresh low => takeWind_of_fresh (counted.1 yes) fresh low, fun yes strong => ?_⟩
    · cases q : qualifying s k with
      | false => exact takeWind_of_uncounted q
      | true => exact takeWind_of_calm q order (quiet.resolve_left (not_not.2 (counted.2 q)))
    · rw [takeWind_of_strong (counted.1 yes) order strong]
      refine ⟨fun has => addCause_of_has (c := .wind) has, fun lacks held => ?_, fun empty running => ?_⟩
      · have lacks' : ¬(calmRestarted (windStored k w s)).berth.causes.has .wind = true := by
          rw [show (calmRestarted (windStored k w s)).berth.causes.has .wind = s.berth.causes.wind from rfl, lacks]
          decide
        exact (if_neg lacks').trans (if_neg held)
      · exact addCause_entered (s := calmRestarted (windStored k w s)) .wind empty running
  · exact ⟨takePhase_same k s, takePhase_fault, takePhase_clear⟩

end Sys2Proof.Machine


/-! PROOFS. The reported view and the job-wanted indication (R38 to R43, R69). -/

namespace Sys2Proof.Machine

variable {s t : State} {k : CraneNo}

/-- The report of a held number that is not in the pool and that the view before did not name in the same place (R40). -/
def unknownReports (s : State) (k : CraneNo) (before now : Option MoveNo) : List Items :=
  match now with
  | some n => if n ∈ (pool s).map (·.number) ∨ before = some n then [] else [.crane k (.unknownMove n)]
  | none => []

theorem reportUnknown_eq (k : CraneNo) (before now : Option MoveNo) (s : State) :
    reportUnknown k before now s = offered (unknownReports s k before now) s := by
  unfold reportUnknown unknownReports
  cases now with
  | none => rfl
  | some n =>
    simp only [inPool_iff]
    split <;> rfl

theorem unknownReports_congr (queues : t.queues = s.queues) (k : CraneNo) (before now : Option MoveNo) :
    unknownReports t k before now = unknownReports s k before now := by
  unfold unknownReports pool
  rw [queues]

/-- Crane `k` with its view stored. -/
def viewStored (k : CraneNo) (v : View) (s : State) : State :=
  { s with cranes := s.cranes.set k { s.cranes[k] with view := some v } }

theorem takeView_eq (k : CraneNo) (v : View) (s : State) : takeView k v s =
    testAgreement k (offered (unknownReports s k ((s.cranes[k]).view.bind (·.active)) v.active ++
      unknownReports s k ((s.cranes[k]).view.bind (·.staged)) v.staged) (viewStored k v s)) := by
  unfold takeView
  dsimp only
  rw [reportUnknown_eq, reportUnknown_eq, offered_append]
  rw [show modCrane k (fun c => { c with view := some v }) s = viewStored k v s from rfl]
  rw [unknownReports_congr (t := viewStored k v s) (s := s) rfl,
    unknownReports_congr (t := offered _ (viewStored k v s)) (s := s) (by rw [offered_state]; rfl)]

theorem testAgreement_offered (k : CraneNo) (is : List Items) (s : State) : testAgreement k (offered is s) = { s with
    cranes := s.cranes.set k { s.cranes[k] with jobMark := agreement s k }
    reports := (offered is s).reports } := by
  rw [offered_state]
  rfl

theorem evaluate_params (k : CraneNo) (s : State) : (evaluate k s).params = s.params := (evaluate_quiet k s).keeps.params

theorem evaluate_clock (k : CraneNo) (s : State) : (evaluate k s).clock = s.clock := (evaluate_quiet k s).keeps.clock

/-- Settles O56: the view through `takeView_eq`, and the indication at each of its branches. -/
theorem viewAndJobWantedTaken : Obligations.ViewAndJobWantedTaken := by
  refine ⟨fun k v s => ?_, fun k wanted v s => ⟨fun unwanted => ?_, fun want free => ?_⟩⟩
  · intro c w fresh
    have fresh_eq : fresh = unknownReports s k := rfl
    have written : (viewStored k v s).cranes.set k { (viewStored k v s).cranes[k] with jobMark := agreement w k } =
        s.cranes.set k { c with view := some v, jobMark := agreement w k } := by
      rw [show viewStored k v s = modCrane k (fun c => { c with view := some v }) s from rfl, modCrane_same, modCrane_cranes,
        Vector.set_set]
    rw [fresh_eq, takeView_eq, testAgreement_offered, show agreement (viewStored k v s) k = agreement w k from rfl, written]
    rw [offered_reports_congr (t := viewStored k v s) (s := s) _ rfl rfl rfl]
    rfl
  · refine if_neg ?_
    rw [Bool.and_eq_true, Option.isNone_iff_eq_none]
    rintro ⟨want, none⟩
    rcases unwanted with unwanted | held
    · rw [want] at unwanted
      cases unwanted
    · rw [none] at held
      cases held
  · intro t c
    have taken : takeJobWanted k wanted v s = if t.cranes[k].active.isSome then t else answerNothing k t :=
      if_pos (by rw [want, free]; rfl)
    have params : t.params = s.params := evaluate_params ..
    have clock : t.clock = s.clock := evaluate_clock ..
    have mode : par t Config.ANSWER_MODE = par s Config.ANSWER_MODE := by unfold par; rw [params]
    rw [taken]
    refine ⟨fun filled => if_pos filled, fun empty immediate => ?_, fun empty deferred => ?_⟩
    · rw [if_neg (by rw [show t.cranes[k].active = none from empty]; decide)]
      exact if_pos (mode.trans immediate)
    · rw [if_neg (by rw [show t.cranes[k].active = none from empty]; decide), ← clock]
      exact if_neg (mode ▸ deferred)

end Sys2Proof.Machine


/-! PROOFS. Event serials, and events that do not match (R70, R71, R74, R75, R109, R110). -/

namespace Sys2Proof.Machine

variable {s t : State} {k : CraneNo} {g : GangNo}

/-! ### The sorting of a serial (R71) -/

theorem sortSerial_of_stale {last : Option Byte} {x : Byte} (stale : ¬Fresh last x) : sortSerial last x = .duplicate := by
  cases last with
  | none => exact absurd (fun l none => nomatch none) stale
  | some l =>
    have old : x = l ∨ 129 ≤ (x - l).toNat := by
      by_contra young
      rw [not_or, not_le] at young
      refine stale fun l' eq => ?_
      cases eq
      exact ⟨young.1, by omega⟩
    unfold sortSerial
    dsimp only
    rw [if_neg (by bv_omega), if_pos (by bv_omega)]

theorem sortSerial_of_next {l x : Byte} (next : x = l + 1) : sortSerial (some l) x = .taken := by
  refine if_pos ?_
  rw [next]
  bv_omega

theorem sortSerial_of_ahead {l x : Byte} (fresh : Fresh (some l) x) (ahead : x ≠ l + 1) :
    sortSerial (some l) x = .gap (l + 1) := by
  obtain ⟨ne, near⟩ := fresh l rfl
  unfold sortSerial
  dsimp only
  rw [if_neg (by bv_omega), if_neg (by bv_omega)]

/-! ### Crane events -/

theorem craneEvent_of_fresh {x : CraneEventItem} (fresh : Fresh (s.cranes[k]).serial x.serial) :
    craneEvent k s x = takeEvent k x (serialTaken k x.serial s) := by
  unfold craneEvent serialTaken
  cases last : (s.cranes[k]).serial with
  | none => rfl
  | some l =>
    rw [last] at fresh
    by_cases next : x.serial = l + 1
    · simp only [sortSerial_of_next next, if_pos next]
      rfl
    · simp only [sortSerial_of_ahead fresh next, if_neg next]
      rfl

/-- Taking a serial writes the serial of one crane and the report queue alone. -/
theorem serialTaken_state (k : CraneNo) (x : Byte) (s : State) : serialTaken k x s = { s with
    cranes := s.cranes.set k { s.cranes[k] with serial := some x }, reports := (serialTaken k x s).reports } := by
  unfold serialTaken
  split
  · rfl
  · split
    · rfl
    · exact report_state ..

theorem serialTaken_get (k : CraneNo) (x : Byte) (s : State) :
    (serialTaken k x s).cranes[k] = { s.cranes[k] with serial := some x } := by
  rw [serialTaken_state]
  exact modCrane_same k (fun c => { c with serial := some x }) s

theorem activeRecord_serialTaken (k : CraneNo) (x : Byte) (s : State) :
    activeRecord (serialTaken k x s) k = activeRecord s k := by
  unfold activeRecord
  rw [serialTaken_get, serialTaken_state]
  rfl

theorem liftAfter_eq (l : Leg) (p : Progress) (x : CraneEventItem) : liftAfter l p x = boxesNamed l p x := by
  unfold liftAfter boxesNamed pickLift
  cases x.event <;> simp [CraneEvent.pick, Bool.and_comm]

theorem matching_of_mismatch {r : MoveRecord} {p : Progress} {x : CraneEventItem} (progress : r.progress = some p)
    (mismatch : x.move ≠ r.number ∨ x.event ≠ p.next ∨ ∀ l, r.legOf x.event = some l → boxesNamed l p x = (false, false)) :
    matching r x = none := by
  unfold matching
  rw [progress]
  cases leg : r.legOf x.event with
  | none => rfl
  | some l =>
    refine if_neg fun ⟨move, next, named⟩ => ?_
    rcases mismatch with other | other | empty
    · exact other move
    · exact other next
    · rw [liftAfter_eq, empty l leg] at named
      cases named

theorem takeEvent_of_idle {x : CraneEventItem} (idle : activeRecord s k = none) :
    takeEvent k x s = eventFault k none x s := by
  unfold takeEvent
  rw [idle]

theorem takeEvent_of_mismatch {r : MoveRecord} {x : CraneEventItem} (active : activeRecord s k = some r)
    (mismatch : matching r x = none) : takeEvent k x s = eventFault k (some r) x s := by
  unfold takeEvent
  rw [active]
  dsimp only
  rw [mismatch]

theorem eventFault_eq {r : MoveRecord} {p : Progress} (progress : r.progress = some p) (x : CraneEventItem) (s : State) :
    eventFault k (some r) x s =
      report (.crane k (.eventFault x.serial x.event x.move (some r.number) (some p.next))) s := by
  unfold eventFault
  rw [Option.map_some, Option.bind_some, progress, Option.map_some]

/-! ### Gang events -/

/-- Gang `g` with the serial of a fresh event taken, after a SERIAL_GAP report where it is not the successor. -/
def gangSerialTaken (g : GangNo) (x : Byte) (s : State) : State :=
  match (s.gangs[g]).serial with
  | none => { s with gangs := s.gangs.set g { s.gangs[g] with serial := some x } }
  | some l =>
    if x = l + 1 then { s with gangs := s.gangs.set g { s.gangs[g] with serial := some x } }
    else report (.gang g (.serialGap (l + 1) x)) { s with gangs := s.gangs.set g { s.gangs[g] with serial := some x } }

theorem gangEvent_of_taken {x : GangEventItem} (fresh : Fresh (s.gangs[g]).serial x.serial) :
    gangEvent g s x = takeGangEvent g x (gangSerialTaken g x.serial s) := by
  unfold gangEvent gangSerialTaken
  cases last : (s.gangs[g]).serial with
  | none => rfl
  | some l =>
    rw [last] at fresh
    by_cases next : x.serial = l + 1
    · simp only [sortSerial_of_next next, if_pos next]
      rfl
    · simp only [sortSerial_of_ahead fresh next, if_neg next]
      rfl

theorem gangSerialTaken_get (g : GangNo) (x : Byte) (s : State) :
    (gangSerialTaken g x s).gangs[g] = { s.gangs[g] with serial := some x } := by
  have gangs : (gangSerialTaken g x s).gangs = s.gangs.set g { s.gangs[g] with serial := some x } := by
    unfold gangSerialTaken
    split
    · rfl
    · split
      · rfl
      · rw [report_state]
  rw [gangs, Vector.get_set, if_pos rfl]

theorem takeGangEvent_fault {x : GangEventItem} (sent : ∀ j, (s.gangs[g]).state = .sent j → x.area ≠ j.area)
    (working : ∀ j, (s.gangs[g]).state = .working j → x.area ≠ j.area ∨ x.event = .onArea) :
    takeGangEvent g x s = report (.gang g (.eventFault x.serial x.event x.area (s.gangs[g]).state)) s := by
  unfold takeGangEvent
  split
  · next j state _ => exact if_neg (sent j state)
  · next j state _ => exact if_neg (sent j state)
  · next j state done =>
    refine if_neg ((working j state).resolve_right ?_)
    rw [done]
    decide
  · rfl

theorem takeGangEvent_onArea {x : GangEventItem} {j : Job} (sent : (s.gangs[g]).state = .sent j) (here : x.area = j.area)
    (event : x.event = .onArea) : takeGangEvent g x s =
      report (.gang g (.onArea j.area)) (modGang g (fun y => { y with state := .working j, mark := .clear }) s) := by
  unfold takeGangEvent
  rw [sent, event]
  exact if_pos here

/-- Settles O57: stale serials by `sortSerial_of_stale`, and the faults of a taken event at its branches. -/
theorem eventSerialsAndFaults : Obligations.EventSerialsAndFaults := by
  refine ⟨fun s k x stale => ?_, fun s g x stale => ?_, fun s k x fresh => ⟨fun idle => ?_, fun r p active progress mismatch => ?_⟩,
    fun s g x fresh => ?_⟩
  · unfold craneEvent
    rw [sortSerial_of_stale stale]
  · unfold gangEvent
    rw [sortSerial_of_stale stale]
  · rw [craneEvent_of_fresh fresh, takeEvent_of_idle ((activeRecord_serialTaken ..).trans idle)]
    rfl
  · rw [craneEvent_of_fresh fresh, takeEvent_of_mismatch ((activeRecord_serialTaken ..).trans active)
      (matching_of_mismatch progress mismatch), eventFault_eq progress]
  · intro v w
    have w_eq : w = gangSerialTaken g x.serial s := rfl
    have gang : w.gangs[g] = { s.gangs[g] with serial := some x.serial } := by rw [w_eq, gangSerialTaken_get]
    have state : (w.gangs[g]).state = (s.gangs[g]).state := by rw [gang]
    rw [gangEvent_of_taken fresh, ← w_eq]
    refine ⟨fun sent working => ?_, fun j sent here event => ?_⟩
    · rw [← state] at sent working ⊢
      exact takeGangEvent_fault sent working
    · rw [takeGangEvent_onArea (state.trans sent) here event]
      unfold modGang
      rw [gang]

end Sys2Proof.Machine


/-! PROOFS. Matching events that are not final (R72, R75 to R77). -/

namespace Sys2Proof.Machine

variable {s t : State} {k : CraneNo} {n : LaneNo} {x : CraneEventItem} {r : MoveRecord} {l : Leg} {p : Progress}

/-! ### A slot written twice, and reports between -/

theorem slotWritten_withReports (n : LaneNo) (y : Slot) (q : Reports) (t : State) :
    slotWritten n y { t with reports := q } = { slotWritten n y t with reports := q } := by
  unfold slotWritten
  dsimp only
  split <;> rfl

theorem slotWritten_slotWritten {y z : Slot} (first : y.signal ≠ (t.lanes[n]).slot.signal)
    (second : z.signal ≠ (t.lanes[n]).slot.signal) : slotWritten n z (slotWritten n y t) = slotWritten n z t := by
  have lane : (slotWritten n y t).lanes[n] = { t.lanes[n] with slot := y } := by
    rw [slotWritten_lanes, Vector.get_set, if_pos rfl]
  by_cases unused : (t.lanes[n]).use = .unused
  · have written (v : Slot) : slotWritten n v t = { t with lanes := t.lanes.set n { t.lanes[n] with slot := v } } :=
      if_pos (.inr unused)
    have again : slotWritten n z (slotWritten n y t) = { slotWritten n y t with
        lanes := (slotWritten n y t).lanes.set n { (slotWritten n y t).lanes[n] with slot := z } } :=
      if_pos (.inr (by rw [lane]; exact unused))
    rw [again, lane, written y, written z, Vector.set_set]
  · have written {v : Slot} (changed : v.signal ≠ (t.lanes[n]).slot.signal) : slotWritten n v t = { t with
        lanes := t.lanes.set n { t.lanes[n] with slot := v }, gateMarks := t.gateMarks.set (gateOf n) true } :=
      if_neg (not_or.2 ⟨changed, unused⟩)
    rw [written second, slotWritten]
    dsimp only
    rw [lane, written first, Vector.set_set, Vector.set_set, ite_self]

/-! ### An event that is taken and matches -/

theorem boxesLeft_eq (l : Leg) (p : Progress) (x : CraneEventItem) : boxesLeft l p x = boxesNotNamed l p x := by
  have pick : x.event.pick = true ↔ x.event = .pickV ∨ x.event = .pickL := by cases x.event <;> decide
  unfold boxesLeft boxesNotNamed liftAfter pickLift
  by_cases picked : x.event.pick = true
  · cases l.box2 <;> simp [picked, ← pick]
  · have missed (lift box : Bool) : (lift = true ∧ (lift = false ∨ box = false)) ↔ (box = false ∧ lift = true) := by
      cases lift <;> cases box <;> decide
    simp [picked, ← pick, missed]

theorem reportLeft_eq (k : CraneNo) (m : MoveNo) (e : CraneEvent) (bs : List Box) (s : State) :
    reportLeft k m e bs s = offered (bs.map fun b => .crane k (.boxLeft m e b.identifier)) s := by
  unfold reportLeft offered
  rw [List.foldl_map]

theorem matching_of_matches (matched : EventMatches s k x r l p) : matching r x = some (l, p) := by
  obtain ⟨fresh, active, progress, leg, move, next, boxes⟩ := matched
  unfold matching
  rw [progress, leg]
  refine if_pos ⟨move, next, ?_⟩
  rw [liftAfter_eq, Bool.or_eq_true]
  by_contra none
  rw [not_or, Bool.not_eq_true, Bool.not_eq_true] at none
  exact boxes (Prod.ext none.1 none.2)

/-- A matching event, once its boxes left are reported, advances the move and goes to the lane. -/
theorem craneEvent_of_matches (matched : EventMatches s k x r l p) : craneEvent k s x =
    applyEvent k r l p x (serialTaken k x.serial s) := by
  rw [craneEvent_of_fresh matched.fresh]
  unfold takeEvent
  rw [activeRecord_serialTaken, matched.active]
  dsimp only
  rw [matching_of_matches matched]

theorem applyEvent_of_more {e : CraneEvent} (more : r.kind.after x.event = some e) (w : State) :
    applyEvent k r l p x w = toLane r x.event (modMove r.number
      (fun y => { y with progress := some ⟨e, (boxesNamed l p x).1, (boxesNamed l p x).2⟩ })
      (offered ((boxesNotNamed l p x).map fun b => .crane k (.boxLeft r.number x.event b.identifier)) w)) := by
  unfold applyEvent advance
  dsimp only
  rw [more]
  dsimp only
  rw [reportLeft_eq, boxesLeft_eq, liftAfter_eq]

theorem toLane_of_none (free : r.lane = none) (e : CraneEvent) (t : State) : toLane r e t = t := by
  unfold toLane
  rw [free]

theorem toLane_of_vessel {e : CraneEvent} (vessel : e.laneEvent = false) (t : State) : toLane r e t = t := by
  unfold toLane
  rw [vessel]
  split <;> rfl

theorem toLane_of_lane {e : CraneEvent} (held : r.lane = some n) (lane : e.laneEvent = true) (t : State) :
    toLane r e t = laneEvent n r.number (decide (r.kind.lastLane = some e)) t := by
  unfold toLane
  rw [held, lane]
  rfl

theorem vessel_of_more {e : CraneEvent} (more : r.kind.after x.event = some e) (other : x.event ≠ .pickL) :
    x.event.laneEvent = false := by
  revert more other
  cases r.kind <;> cases x.event <;> simp [MoveKind.after, CraneEvent.laneEvent]

/-! ### Lane events (R76, R77) -/

theorem forceArrived_of_called {m m' : MoveNo} (called : (t.lanes[n]).slot = .called m') :
    forceArrived n m t = report (.lane (.presenceNotSeen n m)) (slotWritten n (.arrived m) t) := by
  unfold forceArrived
  rw [called, setSlot_eq_slotWritten]

theorem forceArrived_of_arrived {m m' : MoveNo} (arrived : (t.lanes[n]).slot = .arrived m') : forceArrived n m t = t := by
  unfold forceArrived
  rw [arrived]

theorem laneEvent_last (here : (t.lanes[n]).slot = .called r.number ∨ (t.lanes[n]).slot = .arrived r.number) :
    laneEvent n r.number true t = slotDone n r t := by
  have last : laneEvent n r.number true t = modMove r.number (fun y => { y with lane := none, called := false })
      (slotWritten n .worked (forceArrived n r.number t)) := by
    rw [← setSlot_eq_slotWritten]
    rfl
  rw [last]
  unfold slotDone
  rcases here with called | arrived
  · rw [if_pos called, offered_cons, offered_nil, forceArrived_of_called called]
    have reports (y : Slot) : (slotWritten n y t).reports = t.reports := by rw [slotWritten_state]
    have clock (y : Slot) : (slotWritten n y t).clock = t.clock := by rw [slotWritten_state]
    have params (y : Slot) : (slotWritten n y t).params = t.params := by rw [slotWritten_state]
    rw [report_state, slotWritten_withReports, slotWritten_slotWritten (by rw [called]; exact Signal.noConfusion)
      (by rw [called]; exact Signal.noConfusion)]
    refine (report_of_same (i := .lane (.presenceNotSeen n r.number)) (s := slotWritten n (.arrived r.number) t)
      (t := modMove r.number (fun y => { y with lane := none, called := false }) (slotWritten n .worked t)) ?_ ?_ ?_).symm
    · exact (reports .worked).trans (reports _).symm
    · exact (clock .worked).trans (clock _).symm
    · exact (params .worked).trans (params _).symm
  · rw [if_neg (by rw [arrived]; exact Slot.noConfusion), offered_nil, forceArrived_of_arrived arrived]

/-- Settles O58: the event matches, and its lane event, if any, goes to the slot that the move holds. -/
theorem matchingEventsAdvance : Obligations.MatchingEventsAdvance := by
  intro s k x r l p e matched distinct more boxes t
  have applied : craneEvent k s x = toLane r x.event t :=
    (craneEvent_of_matches matched).trans (applyEvent_of_more more _)
  have slot (n : LaneNo) : (t.lanes[n]).slot = (s.lanes[n]).slot := by
    have lanes : t.lanes = s.lanes := by
      show (boxesReported k r l p x s).lanes = s.lanes
      rw [boxesReported, offered_state, serialTaken_state]
    rw [lanes]
  rw [applied]
  refine ⟨fun free => ?_, fun n event held here => ?_⟩
  · rcases free with other | free
    · exact toLane_of_vessel (vessel_of_more more other) t
    · exact toLane_of_none free _ t
  · rw [← slot] at here ⊢
    rw [toLane_of_lane held (by rw [event]; rfl), event]
    refine ⟨fun load => ?_, fun dual arrived => ?_, fun dual called => ?_⟩
    · rw [load]
      exact laneEvent_last here
    · rw [dual]
      exact forceArrived_of_arrived arrived
    · rw [dual]
      exact forceArrived_of_called called

end Sys2Proof.Machine


/-! PROOFS. What the lashing table and the dispatcher can do to records and areas: every record is followed, and no area
goes back where it came from. -/

namespace Sys2Proof.Machine

variable {s t u : State} {r r' r'' : MoveRecord} {a : AreaNo} {W : AreaNo → Bool}

/-! ### A record followed -/

/-- READY where the record is eligible, and PENDING where it is not. -/
def Settled (s : State) (r : MoveRecord) : Prop := r.state = if eligible s r then .ready else .pending

/-- What evaluations from `s` to `t` make of record `r` (R13, R14). -/
structure Followed (s t : State) (r r' : MoveRecord) : Prop where
  same : r' = { r with state := r'.state, readyTime := r'.readyTime }
  busy : r.busy = true → r' = r
  settled : Settled s r → Settled t r'
  state : r' = r ∨ r'.state = .ready ∨ r'.state = .pending
  time : r'.readyTime = r.readyTime ∨ r'.readyTime = some s.clock
  fresh : r.state ≠ .ready → r'.state = .ready → r'.readyTime = some s.clock

theorem restated_trans (h : r' = { r with state := r'.state, readyTime := r'.readyTime })
    (h' : r'' = { r' with state := r''.state, readyTime := r''.readyTime }) :
    r'' = { r with state := r''.state, readyTime := r''.readyTime } := by
  rw [h] at h'
  exact h'

theorem Followed.number (h : Followed s t r r') : r'.number = r.number := by rw [h.same]

theorem Followed.trans (clock : t.clock = s.clock) (h : Followed s t r r') (h' : Followed t u r' r'') :
    Followed s u r r'' where
  same := restated_trans h.same h'.same
  busy b := by
    have first := h.busy b
    subst first
    exact h'.busy b
  settled := h'.settled ∘ h.settled
  state := by
    rcases h'.state with same | moved
    · rw [same]
      exact h.state
    · exact .inr moved
  time := by
    rcases h'.time with same | taken
    · rw [same]
      exact h.time
    · exact .inr (taken.trans (congrArg some clock))
  fresh unready ready := by
    rcases h'.time with same | taken
    · by_cases before : r'.state = .ready
      · exact same.trans (h.fresh unready before)
      · exact (h'.fresh before ready).trans (congrArg some clock)
    · exact taken.trans (congrArg some clock)

theorem settled_idle (h : Settled s r) : r.busy = false := by
  unfold Settled at h
  unfold MoveRecord.busy
  rw [h]
  split <;> rfl

theorem followed_self (elig : r.busy = true ∨ eligible t r = eligible s r) : Followed s t r r where
  same := rfl
  busy _ := rfl
  settled h := by
    rcases elig with busy | elig
    · rw [settled_idle h] at busy
      cases busy
    · unfold Settled
      rw [elig]
      exact h
  state := .inl rfl
  time := .inl rfl
  fresh unready ready := absurd ready unready

theorem evaluateRecord_time {x : State} (r : MoveRecord) :
    (evaluateRecord x r).readyTime = r.readyTime ∨ (evaluateRecord x r).readyTime = some x.clock := by
  unfold evaluateRecord
  split
  · dsimp only
    split
    · exact .inl rfl
    · exact .inr rfl
  · exact .inl rfl

theorem followed_evaluated {x : State} (clock : x.clock = s.clock) (elig : eligible t r = eligible x r)
    (idle : r.busy = false) : Followed s t r (evaluateRecord x r) where
  same := evaluateRecord_same x r
  busy b := by rw [idle] at b; cases b
  settled _ := by
    unfold Settled
    rw [eligible_restated t (evaluateRecord_same x r), elig, evaluateRecord_state]
  state := by
    rw [evaluateRecord_state]
    split
    · exact .inr (.inl rfl)
    · exact .inr (.inr rfl)
  time := clock ▸ evaluateRecord_time r
  fresh unready ready := by
    rw [evaluateRecord_state] at ready
    split at ready
    · next met => rw [evaluateRecord_of_eligible met, if_neg unready, clock]
    · cases ready

/-- A record that an event of area `a` concerns, or spares. -/
theorem followed_anew {x : State} {areas : MoveRecord → List AreaNo} (clock : x.clock = s.clock)
    (elig : eligible t r = eligible x r) (spared : a ∉ areas r → eligible t r = eligible s r) :
    Followed s t r (anew x areas a r) := by
  by_cases concerned : r.busy = false ∧ a ∈ areas r
  · rw [anew_of_concerned concerned.1 concerned.2]
    exact followed_evaluated clock elig concerned.1
  · rw [show anew x areas a r = r from if_neg concerned]
    refine followed_self ?_
    by_cases busy : r.busy = true
    · exact .inl busy
    · exact .inr (spared fun mem => concerned ⟨Bool.eq_false_iff.2 busy, mem⟩)

/-! ### Deck states ranked -/

/-- How far a deck state has gone from the first change that the lashing table may make of it: an area with deck work goes
from LASHED to UNLASH_WAIT, or from LASH_WAIT back to OPEN, and one without the other way; a gang is sent last. -/
def deckRank (work : Bool) : Deck → Nat
  | .unlashing | .lashing => 2
  | .unlashWait | .opened => if work then 1 else 0
  | .lashed | .lashWait => if work then 0 else 1

theorem deckRank_le_underWay (work : Bool) (d : Deck) (k : JobKind) : deckRank work d ≤ deckRank work k.underWay := by
  cases work <;> cases d <;> cases k <;> decide

/-- The rank of area `a`. -/
def areaRank (W : AreaNo → Bool) (s : State) (a : AreaNo) : Nat := deckRank (W a) (s.areas[a]).deck

/-! ### Lashing steps -/

/-- What lashing steps may do: they write areas, jobs, gangs and reports, evaluate records, and lower no area's rank. -/
structure Relashed (W : AreaNo → Bool) (s t : State) : Prop where
  rest : t = { s with queues := t.queues, areas := t.areas, jobs := t.jobs, gangs := t.gangs, reports := t.reports }
  records : ∃ f : MoveRecord → MoveRecord, (∀ k : CraneNo, t.queues[k] = (s.queues[k]).map f) ∧ ∀ r, Followed s t r (f r)
  climb : ∀ a, areaRank W s a ≤ areaRank W t a

theorem Relashed.clock (h : Relashed W s t) : t.clock = s.clock := by rw [h.rest]
theorem Relashed.bays (h : Relashed W s t) : t.bays = s.bays := by rw [h.rest]
theorem Relashed.params (h : Relashed W s t) : t.params = s.params := by rw [h.rest]
theorem Relashed.cranes (h : Relashed W s t) : t.cranes = s.cranes := by rw [h.rest]
theorem Relashed.lanes (h : Relashed W s t) : t.lanes = s.lanes := by rw [h.rest]

theorem Relashed.refl (W : AreaNo → Bool) (s : State) : Relashed W s s :=
  ⟨rfl, ⟨id, fun _ => (List.map_id _).symm, fun _ => followed_self (.inr rfl)⟩, fun _ => le_refl _⟩

theorem Relashed.trans (h : Relashed W s t) (h' : Relashed W t u) : Relashed W s u where
  rest := by
    have later := h'.rest
    rw [h.rest] at later
    exact later
  records := by
    obtain ⟨f, queues, follow⟩ := h.records
    obtain ⟨f', queues', follow'⟩ := h'.records
    refine ⟨f' ∘ f, fun k => ?_, fun r => (follow r).trans h.clock (follow' (f r))⟩
    rw [queues', queues, List.map_map]
  climb a := (h.climb a).trans (h'.climb a)

/-- A step that writes jobs, gangs and reports alone. -/
theorem Relashed.of_same (rest : t = { s with jobs := t.jobs, gangs := t.gangs, reports := t.reports }) :
    Relashed W s t := by
  have areas : t.areas = s.areas := by rw [rest]
  have bays : t.bays = s.bays := by rw [rest]
  have queues : t.queues = s.queues := by rw [rest]
  refine ⟨?_, ⟨id, fun k => ?_, fun r => followed_self (.inr (eligible_congr areas bays r))⟩, fun a => ?_⟩
  · rw [queues, areas]
    exact rest
  · rw [queues, List.map_id]
  · unfold areaRank
    rw [areas]

theorem report_relashed (i : Items) (s : State) : Relashed W s (report i s) := .of_same (by
  conv_lhs => rw [report_state]
  simp only [report_jobs, report_gangs])

theorem modGang_relashed (g : GangNo) (f : Gang → Gang) (s : State) : Relashed W s (modGang g f s) := .of_same rfl

theorem setJobs_relashed (js : List Job) (s : State) : Relashed W s (setJobs js s) := .of_same rfl

theorem setDeck_relashed {d : Deck} (up : deckRank (W a) (s.areas[a]).deck ≤ deckRank (W a) d) (c : AreaCause) :
    Relashed W s (setDeck a d c s) := by
  have areas : (setDeck a d c s).areas = (deckWritten a d s).areas := by rw [setDeck_eq]
  have bays : (setDeck a d c s).bays = s.bays := by rw [setDeck_eq]; rfl
  refine ⟨by rw [setDeck_eq]; rfl, ⟨anew (deckWritten a d s) (deckAreas s) a, fun k => ?_, fun r => ?_⟩, fun b => ?_⟩
  · rw [setDeck_eq]
    exact Vector.ofFn_get ..
  · refine followed_anew rfl (eligible_congr areas (bays.trans rfl) r) fun out => ?_
    refine eligible_eq_of_areas bays (fun b mem => ?_) fun b mem => ?_
    · rw [areas, deckWritten_get, if_neg (ne_of_mem_of_not_mem mem out)]
    · rw [areas, deckWritten_get]
      split
      · next here => rw [here]
      · rfl
  · unfold areaRank
    rw [areas, deckWritten_get]
    split
    · next here =>
      subst here
      exact up
    · exact le_refl _

theorem setGangPresent_relashed (g : Option GangNo) (s : State) : Relashed W s (setGangPresent a g s) := by
  have areas : (setGangPresent a g s).areas = (gangWritten a g s).areas := by rw [setGangPresent_eq]
  have bays : (setGangPresent a g s).bays = s.bays := by rw [setGangPresent_eq]; rfl
  have written (b : AreaNo) : (gangWritten a g s).areas[b] = if b = a then { s.areas[a] with gang := g } else s.areas[b] :=
    Vector.get_set ..
  refine ⟨by rw [setGangPresent_eq]; rfl, ⟨anew (gangWritten a g s) (pointAreas s) a, fun k => ?_, fun r => ?_⟩, fun b => ?_⟩
  · rw [setGangPresent_eq]
    exact Vector.ofFn_get ..
  · refine followed_anew rfl (eligible_congr areas (bays.trans rfl) r) fun out => ?_
    refine eligible_eq_of_areas bays (fun b mem => ?_) fun b mem => ?_
    · rw [areas, written]
      split
      · next here => rw [here]
      · rfl
    · rw [areas, written, if_neg (ne_of_mem_of_not_mem mem out)]
  · unfold areaRank
    rw [areas, written]
    split
    · next here => rw [here]
    · exact le_refl _

theorem giveJob_relashed (g : GangNo) (j : Job) (s : State) : Relashed W s (giveJob g j s) := by
  unfold giveJob
  refine Relashed.trans ?_ (report_relashed ..)
  refine Relashed.trans ?_ (setGangPresent_relashed ..)
  refine Relashed.trans ?_ (setDeck_relashed (deckRank_le_underWay ..) _)
  exact (setJobs_relashed ..).trans (modGang_relashed ..)

theorem serveGang_relashed (s : State) (g : GangNo) : Relashed W s (serveGang s g) := by
  unfold serveGang
  split
  · split
    · exact giveJob_relashed ..
    · exact .refl W s
  · exact .refl W s

theorem dispatchPass_relashed (s : State) : Relashed W s (dispatchPass s) := by
  suffices general : ∀ (gs : List GangNo) (t : State), Relashed W t (gs.foldl serveGang t) by
    unfold dispatchPass
    split
    · exact general _ s
    · exact .refl W s
  intro gs
  induction gs with
  | nil => exact fun t => .refl W t
  | cons g gs ih => exact fun t => (serveGang_relashed t g).trans (ih _)

/-! ### The tests of the lashing table -/

/-- `W` names the areas with deck work. -/
def Worked (W : AreaNo → Bool) (s : State) : Prop := ∀ a, W a = !noDeckWork s a

/-- Lashing steps that leave the state, or raise some area's rank. -/
structure Lashed (W : AreaNo → Bool) (s t : State) : Prop extends Relashed W s t where
  still : t = s ∨ ∃ a, areaRank W s a < areaRank W t a

theorem Lashed.refl (W : AreaNo → Bool) (s : State) : Lashed W s s := ⟨.refl W s, .inl rfl⟩

theorem Lashed.trans (h : Lashed W s t) (h' : Lashed W t u) : Lashed W s u where
  toRelashed := h.toRelashed.trans h'.toRelashed
  still := by
    rcases h.still with same | ⟨a, up⟩
    · rw [← same]
      exact h'.still
    · exact .inr ⟨a, up.trans_le (h'.climb a)⟩

/-- Where no area has changed, nothing has. -/
theorem Lashed.eq_of_areas (h : Lashed W s t) (areas : t.areas = s.areas) : t = s := by
  refine h.still.resolve_right fun ⟨a, up⟩ => ?_
  unfold areaRank at up
  rw [areas] at up
  exact lt_irrefl _ up

theorem noDeckWork_relashed (h : Relashed W s t) (a : AreaNo) : noDeckWork t a = noDeckWork s a := by
  obtain ⟨f, queues, follow⟩ := h.records
  have deck (r : MoveRecord) : deckAreas t (f r) = deckAreas s r := by
    rw [deckAreas_congr h.bays, (follow r).same]
    rfl
  unfold noDeckWork
  rw [Bool.eq_iff_iff, List.all_eq_true, List.all_eq_true]
  simp only [mem_pool_iff, queues, decide_eq_true_eq]
  constructor
  · rintro clear r ⟨k, mem⟩
    rw [← deck]
    exact clear (f r) ⟨k, List.mem_map_of_mem mem⟩
  · rintro clear r ⟨k, mem⟩
    obtain ⟨r0, mem0, rfl⟩ := List.mem_map.1 mem
    rw [deck]
    exact clear r0 ⟨k, mem0⟩

theorem Worked.relashed (worked : Worked W s) (h : Relashed W s t) : Worked W t := fun a => by
  rw [noDeckWork_relashed h]
  exact worked a

theorem Lashed.foldl {α : Type} {f : State → α → State} {as : List α}
    (step : ∀ s, ∀ a ∈ as, Worked W s → Lashed W s (f s a)) (worked : Worked W s) : Lashed W s (as.foldl f s) := by
  induction as generalizing s with
  | nil => exact .refl W s
  | cons a as ih =>
    have first := step s a List.mem_cons_self worked
    exact first.trans (ih (fun s b mem => step s b (List.mem_cons_of_mem _ mem)) (worked.relashed first.toRelashed))

/-- A deck state written up the ranks, and lashing steps after it. -/
theorem Lashed.of_raise {d : Deck} {c : AreaCause} (up : deckRank (W a) (s.areas[a]).deck < deckRank (W a) d)
    (js : List Job) (later : Relashed W (setDeck a d c (setJobs js s)) t) : Lashed W s t where
  toRelashed := ((setJobs_relashed js s).trans (setDeck_relashed (s := setJobs js s) (le_of_lt up) c)).trans later
  still := by
    refine .inr ⟨a, lt_of_lt_of_le ?_ (later.climb a)⟩
    have deck : ((setDeck a d c (setJobs js s)).areas[a]).deck = d := by
      rw [show (setDeck a d c (setJobs js s)).areas = (deckWritten a d (setJobs js s)).areas by rw [setDeck_eq],
        deckWritten_get, if_pos rfl]
    unfold areaRank
    rw [deck]
    exact up

theorem worked_of_lead (worked : Worked W s) (due : unlashDue s a = true) : W a = true := by
  unfold unlashDue at due
  rw [Bool.and_eq_true, List.any_eq_true] at due
  obtain ⟨-, k, -, lead⟩ := due
  obtain ⟨r, mem, deck⟩ := List.any_eq_true.1 lead
  rw [worked, Bool.not_eq_true', noDeckWork, List.all_eq_false]
  refine ⟨r, (mem_pool_iff s r).2 ⟨k, List.mem_of_mem_take mem⟩, ?_⟩
  simpa using deck

theorem unlashTest_lashed (worked : Worked W s) (a : AreaNo) : Lashed W s (unlashTest s a) := by
  unfold unlashTest
  split
  · next due =>
    refine .of_raise (d := .unlashWait) (c := .unlashQueued) ?_ _ (dispatchPass_relashed _)
    rw [worked_of_lead worked due, unlashDue_deck due]
    decide
  · exact .refl W s

theorem lashTest_lashed (worked : Worked W s) (a : AreaNo) : Lashed W s (lashTest s a) := by
  unfold lashTest
  split
  · next due =>
    have clear : noDeckWork s a = true := by
      unfold lashDue at due
      exact (Bool.and_eq_true_iff.1 due).2
    refine .of_raise (d := .lashWait) (c := .lashQueued) ?_ _ (dispatchPass_relashed _)
    rw [worked, clear, lashDue_deck due]
    decide
  · exact .refl W s

theorem unlashWithdrawTest_lashed (worked : Worked W s) (a : AreaNo) : Lashed W s (unlashWithdrawTest s a) := by
  unfold unlashWithdrawTest
  split
  · next due =>
    refine .of_raise (d := .lashed) (c := .unlashWithdrawn) ?_ _ (.refl W _)
    rw [worked, due.2, due.1]
    decide
  · exact .refl W s

theorem queueChanged_lashed (worked : Worked W s) (k : CraneNo) : Lashed W s (queueChanged k s) :=
  Lashed.foldl (fun _ a _ w => unlashTest_lashed w a) worked

theorem deckPointsLost_lashed (worked : Worked W s) (as : List AreaNo) : Lashed W s (deckPointsLost as s) :=
  Lashed.foldl (fun _ a _ w =>
    have first := unlashWithdrawTest_lashed w a
    first.trans (lashTest_lashed (w.relashed first.toRelashed) a)) worked

theorem deckPointsGained_lashed (worked : Worked W s) {as : List AreaNo} (work : ∀ a ∈ as, W a = true) :
    Lashed W s (deckPointsGained as s) := by
  refine Lashed.foldl (fun x a mem w => ?_) worked
  split
  · next waits =>
    refine .of_raise (d := .opened) (c := .lashWithdrawn) ?_ _ (.refl W _)
    rw [work a mem, waits]
    decide
  · exact .refl W x

/-- The areas with deck work. -/
def deckWork (s : State) (a : AreaNo) : Bool := !noDeckWork s a

theorem worked_deckWork (s : State) : Worked (deckWork s) s := fun _ => rfl

end Sys2Proof.Machine


/-! PROOFS. Directives that pass their tests; HOLD, RESUME and RETURN (R121 to R123, R128). -/

namespace Sys2Proof.Machine

variable {s t u : State} {k : CraneNo}

/-! ### Agreement, by what it reads (R38) -/

theorem agreement_of_members (members : ∀ j n, n ∈ queueNumbers t j ↔ n ∈ queueNumbers s j)
    (view : (t.cranes[k]).view = (s.cranes[k]).view) (active : (t.cranes[k]).active = (s.cranes[k]).active)
    (staged : (t.cranes[k]).staged = (s.cranes[k]).staged) : agreement t k = agreement s k := by
  have pooled (n : MoveNo) : inPool t n = inPool s n := by
    rw [Bool.eq_iff_iff, inPool_iff, inPool_iff]
    simp only [List.mem_map, mem_pool_iff]
    have queue (x : State) : (∃ r, (∃ j : CraneNo, r ∈ x.queues[j]) ∧ r.number = n) ↔ ∃ j, n ∈ queueNumbers x j := by
      unfold queueNumbers
      simp only [List.mem_map]
      exact ⟨fun ⟨r, ⟨j, mem⟩, number⟩ => ⟨j, r, mem, number⟩, fun ⟨j, r, mem, number⟩ => ⟨r, ⟨j, mem⟩, number⟩⟩
    rw [queue, queue]
    simp only [members]
  unfold agreement viewUnknown
  simp only [view, active, staged, pooled]

theorem agreement_congr (numbers : ∀ j, queueNumbers t j = queueNumbers s j) (view : (t.cranes[k]).view = (s.cranes[k]).view)
    (active : (t.cranes[k]).active = (s.cranes[k]).active) (staged : (t.cranes[k]).staged = (s.cranes[k]).staged) :
    agreement t k = agreement s k :=
  agreement_of_members (fun j n => by rw [numbers]) view active staged

/-! ### A staged move taken back, with what follows (R122, R126) -/

/-- What a take-back by a directive leaves. -/
structure TakenBack (k : CraneNo) (s t : State) : Prop where
  rest : t = { s with
    cranes := t.cranes, queues := t.queues, areas := t.areas, jobs := t.jobs, gangs := t.gangs, reports := t.reports }
  crane : t.cranes[k] = { s.cranes[k] with
    staged := none
    jobMark := if (s.cranes[k]).staged.isSome then agreement t k else (s.cranes[k]).jobMark }
  others : ∀ j : CraneNo, j ≠ k → t.cranes[j] = s.cranes[j]
  records : ∃ f : MoveRecord → MoveRecord, (∀ j : CraneNo, t.queues[j] = (s.queues[j]).map f) ∧
    ∀ r, f r = { r with state := (f r).state, readyTime := (f r).readyTime } ∧
      ((s.cranes[k]).staged = some r.number → (f r).state = .ready ∨ (f r).state = .pending)
  reports : (s.cranes[k]).staged = none ∨ s.berth.state ≠ .running → t.reports = s.reports

theorem TakenBack.numbers (h : TakenBack k s t) (j : CraneNo) : queueNumbers t j = queueNumbers s j := by
  obtain ⟨f, queues, follow⟩ := h.records
  exact queueNumbers_map (queues j) fun r => by rw [(follow r).1]

/-- A record of the pool after the take-back was one before, but for its state and ready time. -/
theorem TakenBack.of_mem (h : TakenBack k s t) {r' : MoveRecord} (mem : r' ∈ pool t) : ∃ r ∈ pool s,
    r' = { r with state := r'.state, readyTime := r'.readyTime } ∧
      ((s.cranes[k]).staged = some r'.number → r'.state = .ready ∨ r'.state = .pending) := by
  obtain ⟨f, queues, follow⟩ := h.records
  obtain ⟨j, mem⟩ := (mem_pool_iff ..).1 mem
  rw [queues] at mem
  obtain ⟨r, old, rfl⟩ := List.mem_map.1 mem
  obtain ⟨same, back⟩ := follow r
  exact ⟨r, (mem_pool_iff ..).2 ⟨j, old⟩, same, fun staged => back (by rw [same] at staged; exact staged)⟩

theorem takeBackAndFollow_takenBack (k : CraneNo) (s : State) : TakenBack k s (takeBackAndFollow k s) := by
  unfold takeBackAndFollow
  cases held : (s.cranes[k]).staged with
  | none =>
    rw [if_neg (by decide)]
    refine ⟨rfl, ?_, fun j _ => rfl, ⟨id, fun j => (List.map_id _).symm, fun r => ⟨rfl, fun h => ?_⟩⟩, fun _ => rfl⟩
    · rw [held, if_neg (by decide), ← held]
    · rw [held] at h
      cases h
  | some n =>
    rw [if_pos (show (some n).isSome = true from rfl)]
    have passed := dispatchPass_relashed (W := fun _ => true) (testAgreement k (takeBack k s))
    have berth : (testAgreement k (takeBack k s)).berth = s.berth := by
      show (takeBack k s).berth = s.berth
      rw [takeBack_state]
    have reports : (testAgreement k (takeBack k s)).reports = s.reports := by
      show (takeBack k s).reports = s.reports
      rw [takeBack_state]
    obtain ⟨g, queues, follow⟩ := passed.records
    have cranes := passed.cranes
    have rest := passed.rest
    have still : s.berth.state ≠ .running →
        (dispatchPass (testAgreement k (takeBack k s))).reports = s.reports := fun h => by
      rw [dispatchPass_of_held (by rw [berth]; exact h), reports]
    generalize dispatchPass (testAgreement k (takeBack k s)) = t at *
    have records : ∃ f : MoveRecord → MoveRecord, (∀ j : CraneNo, t.queues[j] = (s.queues[j]).map f) ∧
        ∀ r, f r = { r with state := (f r).state, readyTime := (f r).readyTime } ∧
          (some n = some r.number → (f r).state = .ready ∨ (f r).state = .pending) := by
      refine ⟨fun r => g (if some n = some r.number then evaluateRecord s r else r), fun j => ?_, fun r => ⟨?_, fun here => ?_⟩⟩
      · rw [queues, show (testAgreement k (takeBack k s)).queues = (takeBack k s).queues from rfl, takeBack_queues, held,
          List.map_map]
        rfl
      · have first : (if some n = some r.number then evaluateRecord s r else r) = { r with
            state := (if some n = some r.number then evaluateRecord s r else r).state
            readyTime := (if some n = some r.number then evaluateRecord s r else r).readyTime } := by
          split
          · exact evaluateRecord_same s r
          · rfl
        exact restated_trans first (follow _).same
      · dsimp only
        rw [if_pos here]
        rcases (follow (evaluateRecord s r)).state with same | moved
        · rw [same, evaluateRecord_state]
          split
          · exact .inl rfl
          · exact .inr rfl
        · exact moved
    have crane : t.cranes[k] = { s.cranes[k] with staged := none, jobMark := agreement (takeBack k s) k } := by
      rw [cranes, testAgreement, modCrane_same, takeBack_crane]
    have numbers (j : CraneNo) : queueNumbers t j = queueNumbers (takeBack k s) j :=
      queueNumbers_map (queues j) fun r => (follow r).number
    refine ⟨?_, ?_, fun j other => ?_, held ▸ records, fun h => h.elim (fun none => by rw [held] at none; cases none) still⟩
    · rw [rest]
      unfold testAgreement modCrane
      rw [takeBack_state]
    · rw [crane, held, if_pos (show (some n).isSome = true from rfl)]
      have agreed : agreement t k = agreement (takeBack k s) k := by
        refine agreement_congr numbers ?_ ?_ ?_ <;> rw [crane, takeBack_crane]
      rw [agreed]
    · rw [cranes, testAgreement, modCrane_get, if_neg other, takeBack_get, if_neg other]

/-! ### A directive that passes its tests (R120) -/

section
variable {tele : Telegram} {o : DirectiveOrder}

theorem directiveNamed_of_read {body : List Byte} (read : readDirective body = some o) :
    directiveNamed body = some o.kind := by
  unfold readDirective at read
  split at read
  · next n kc =>
    obtain ⟨kind, named, read⟩ := Option.bind_eq_some_iff.1 read
    split at read
    · cases read
    · cases read
      exact named
  · next n kc m1 m0 =>
    obtain ⟨kind, named, read⟩ := Option.bind_eq_some_iff.1 read
    split at read
    · cases read
      exact named
    · cases read
  · cases read

theorem directive_unit (ready : DirectiveReady s tele k o) : directiveFor o.kind (route s tele) tele (popInbound s) =
    some (applyDirective k o (popInbound s)) := by
  have named : ∀ x, directiveNamed tele.body = some x → x = o.kind := fun x named =>
    Option.some.inj (named.symm.trans (directiveNamed_of_read ready.body))
  rw [directiveFor_named ready.toToCrane named, takeDirective_of_read (s := popInbound s) ready.present ready.body]
  rw [if_neg (by rw [popInbound_eq, ready.idle]; decide)]

/-- A directive accepted leaves what its act makes of the state, but for the uplink. -/
theorem directive_done {f : State → State} (ready : DirectiveReady s tele k o) (free : UplinkFree f)
    (done : applyDirective k o (popInbound s) = accept (f (popInbound s))) :
    exec o.kind.row s = .next (withUplink (answeredUplink s.uplink tele .accepted [] none) (f s)) := by
  have answered : directiveFor o.kind (route s tele) tele (popInbound s) = some (accept (f (popInbound s))) :=
    (directive_unit ready).trans (congrArg some done)
  rw [exec_directive, awake_takeHead ready.toAtHead answered (uplinkFree_kept free s)]
  have same : (accept (f (popInbound s))).state = withUplink (takenUplink s.uplink) (f s) := by
    rw [popInbound_withUplink]
    exact free _ s
  rw [same]
  rfl

theorem directive_turned_down {r : Result} (ready : DirectiveReady s tele k o)
    (refused : applyDirective k o (popInbound s) = refuse r (popInbound s)) :
    exec o.kind.row s = .next (answeredOnly s tele r) := by
  rw [exec_directive, awake_takeHead_refused ready.toAtHead ((directive_unit ready).trans (congrArg some refused))]

/-! ### HOLD (R122) -/

/-- Crane `k` held, with the directive `d` in its slot. -/
def heldWith (k : CraneNo) (d : PendingDirective) (s : State) : State :=
  modCrane k (fun c => { c with held := true, directive := some d }) s

theorem heldWith_crane (k : CraneNo) (d : PendingDirective) (s : State) :
    (heldWith k d s).cranes[k] = { s.cranes[k] with held := true, directive := some d } := modCrane_same ..

theorem heldWith_other (d : PendingDirective) {j : CraneNo} (other : j ≠ k) :
    (heldWith k d s).cranes[j] = s.cranes[j] := (modCrane_get ..).trans (if_neg other)

/-- What a HOLD makes of the state. -/
def holdMade (k : CraneNo) (d : PendingDirective) (s : State) : State :=
  testAcceptance k (takeBackAndFollow k (markOverlap k (heldWith k d s)))

theorem holdMade_uplinkFree (k : CraneNo) (d : PendingDirective) : UplinkFree (holdMade k d) := fun u s => by
  unfold holdMade
  rw [show heldWith k d (withUplink u s) = withUplink u (heldWith k d s) from rfl, markOverlap_uplinkFree,
    takeBackAndFollow_uplinkFree, testAcceptance_uplinkFree]

/-- The HOLD's own writes: the crane held with its directive, and its ACTIVE move marked. -/
theorem markOverlap_heldWith (k : CraneNo) (d : PendingDirective) (s : State) : markOverlap k (heldWith k d s) = { s with
    cranes := s.cranes.set k { s.cranes[k] with held := true, directive := some d }
    queues := Vector.ofFn fun j => (s.queues[j]).map fun r =>
      if (s.cranes[k]).active = some r.number then { r with holdOverlap := true } else r } := by
  have queues : (markOverlap k (heldWith k d s)).queues = Vector.ofFn fun j => (s.queues[j]).map fun r =>
      if (s.cranes[k]).active = some r.number then { r with holdOverlap := true } else r := by
    refine Vector.ext_get fun j => ?_
    rw [markOverlap_queues, Vector.ofFn_get, heldWith_crane]
    rfl
  rw [markOverlap_state, queues]
  rfl

theorem testAcceptance_of_none (d : PendingDirective) (pending : (s.cranes[k]).directive = some d)
    (kind : d.kind = .hold) : testAcceptance k s =
      if (s.cranes[k]).active.isSome then s else accepted k d .normal s := by
  unfold testAcceptance
  rw [pending]
  dsimp only
  rw [if_neg (show ¬d.kind = .withdraw by rw [kind]; decide)]

/-- Crane `k` with its directive slot emptied. -/
def settledDirective (k : CraneNo) (s : State) : State := modCrane k (fun c => { c with directive := none }) s

theorem accepted_state (d : PendingDirective) (way : Acceptance) (s : State) : accepted k d way s =
    { settledDirective k s with reports := (report (.directive k d.number d.kind d.move way) s).reports } :=
  report_of_same _ rfl rfl rfl

theorem settledDirective_get (k j : CraneNo) (s : State) : (settledDirective k s).cranes[j] =
    if j = k then { s.cranes[k] with directive := none } else s.cranes[j] := modCrane_get ..

/-- What the acceptance test of a HOLD leaves. -/
theorem testAcceptance_held (d : PendingDirective) (pending : (s.cranes[k]).directive = some d) (kind : d.kind = .hold) :
    (testAcceptance k s).cranes[k] = { s.cranes[k] with
      directive := if (s.cranes[k]).active.isSome then some d else none } ∧
    (∀ j : CraneNo, j ≠ k → (testAcceptance k s).cranes[j] = s.cranes[j]) ∧
    testAcceptance k s = { s with
      cranes := (testAcceptance k s).cranes
      reports := if (s.cranes[k]).active.isSome then s.reports
        else (report (.directive k d.number d.kind d.move .normal) s).reports } := by
  have tested := testAcceptance_of_none d pending kind
  cases active : (s.cranes[k]).active.isSome with
  | true =>
    rw [active, if_pos rfl] at tested
    rw [tested, if_pos rfl, ← pending]
    exact ⟨rfl, fun _ _ => rfl, rfl⟩
  | false =>
    rw [active, if_neg (by decide), accepted_state] at tested
    rw [tested]
    refine ⟨(settledDirective_get ..).trans (if_pos rfl), fun j other => (settledDirective_get ..).trans (if_neg other), rfl⟩

/-- Settles O34: the HOLD's own writes, then the take-back (`takeBackAndFollow_takenBack`) and the acceptance test. -/
theorem holdTaken : Obligations.HoldTaken := by
  intro s t k o ready kind overlap b x y
  have b_eq : markOverlap k (heldWith k ⟨o.number, .hold, o.move, s.clock⟩ s) = b := markOverlap_heldWith ..
  have crane_b : b.cranes[k] = { s.cranes[k] with
      held := true, directive := some ⟨o.number, .hold, o.move, s.clock⟩ } := by
    rw [← b_eq, markOverlap_state]
    exact heldWith_crane ..
  have x_eq : takeBackAndFollow k b = x := by
    unfold takeBackAndFollow
    rw [crane_b]
  have back := takeBackAndFollow_takenBack k b
  rw [x_eq] at back
  clear_value x
  have crane_x := back.crane
  rw [crane_b] at crane_x
  have pending : (x.cranes[k]).directive = some ⟨o.number, .hold, o.move, s.clock⟩ := by rw [crane_x]
  have active : (x.cranes[k]).active = (s.cranes[k]).active := by rw [crane_x]
  have y_eq : testAcceptance k x = y := by
    rw [testAcceptance_of_none _ pending rfl, active]
    rfl
  have made : holdMade k ⟨o.number, .hold, o.move, s.clock⟩ s = y := by
    unfold holdMade
    rw [b_eq, x_eq, y_eq]
  have taken := directive_done ready (holdMade_uplinkFree k ⟨o.number, .hold, o.move, s.clock⟩)
    (by unfold applyDirective; rw [kind]; rfl)
  rw [kind, made] at taken
  obtain ⟨crane_y, other_y, state_y⟩ := testAcceptance_held _ pending rfl
  rw [y_eq, active] at crane_y state_y
  rw [y_eq] at other_y
  clear_value y
  have queues_y : y.queues = x.queues := by rw [state_y]
  have numbers_y (j : CraneNo) : queueNumbers y j = queueNumbers x j := by
    unfold queueNumbers
    rw [queues_y]
  have pool_y : pool y = pool x := by
    unfold pool
    rw [queues_y]
  have numbers_b (j : CraneNo) : queueNumbers b j = queueNumbers s j := by
    refine queueNumbers_map (f := overlap) (Vector.ofFn_get ..) fun r => ?_
    dsimp only [overlap]
    split <;> rfl
  have clock_x : x.clock = s.clock := by rw [back.rest]
  have params_x : x.params = s.params := by rw [back.rest]
  have agreed : agreement y k = agreement x k := by
    refine agreement_congr numbers_y ?_ ?_ ?_ <;> rw [crane_y]
  refine ⟨_, taken, rfl, rfl, ?_, fun j other => ?_, fun j => ?_, fun n act _ r mem number => ?_,
    fun n staged r mem number => ?_, fun quiet => ?_, ?_⟩
  · show y.cranes[k] = { s.cranes[k] with
      held := true, staged := none
      jobMark := if (s.cranes[k]).staged.isSome then agreement y k else (s.cranes[k]).jobMark
      directive := if (s.cranes[k]).active.isSome then some ⟨o.number, .hold, o.move, s.clock⟩ else none }
    rw [agreed, crane_y, crane_x]
  · refine (other_y j other).trans ((back.others j other).trans ?_)
    rw [← b_eq, markOverlap_state]
    exact heldWith_other _ other
  · exact (numbers_y j).trans ((back.numbers j).trans (numbers_b j))
  · have mem' : r ∈ pool x := pool_y ▸ (show r ∈ pool y from mem)
    obtain ⟨r0, old, same, -⟩ := back.of_mem mem'
    obtain ⟨j, old⟩ := (mem_pool_iff ..).1 old
    rw [show b.queues[j] = (s.queues[j]).map overlap from Vector.ofFn_get ..] at old
    obtain ⟨r1, -, rfl⟩ := List.mem_map.1 old
    have kept : (overlap r1).number = r1.number := by
      dsimp only [overlap]
      split <;> rfl
    have named : r1.number = n := by
      rw [same] at number
      exact kept.symm.trans number
    rw [same]
    show (overlap r1).holdOverlap = true
    dsimp only [overlap]
    rw [if_pos (by rw [named]; exact act)]
  · have mem' : r ∈ pool x := pool_y ▸ (show r ∈ pool y from mem)
    obtain ⟨r0, -, -, moved⟩ := back.of_mem mem'
    exact moved (by rw [crane_b, number]; exact staged)
  · have reports_x : x.reports = s.reports := back.reports (by rw [crane_b]; exact quiet)
    show y.reports = _
    rw [state_y]
    dsimp only
    rw [reports_x, report_reports_congr (s := s) (t := x) _ reports_x clock_x params_x]
  · show y.lanes = s.lanes ∧ y.gateMarks = s.gateMarks ∧ y.clock = s.clock ∧ y.params = s.params ∧ y.cycles = s.cycles ∧
      y.roster = s.roster ∧ y.bays = s.bays ∧ y.berth = s.berth ∧ y.stations = s.stations ∧ y.field = s.field
    rw [state_y, back.rest]
    exact ⟨rfl, rfl, rfl, rfl, rfl, rfl, rfl, rfl, rfl, rfl⟩

/-! ### RESUME and RETURN (R123, R128) -/

theorem settledDirective_of_idle (idle : (s.cranes[k]).directive = none) : settledDirective k s = s := by
  have cranes : (settledDirective k s).cranes = s.cranes := by
    refine Vector.ext_get fun j => ?_
    rw [settledDirective_get]
    split
    · next same => rw [same, ← idle]
    · rfl
  exact congrArg (fun c => { s with cranes := c }) cranes

/-- A directive accepted at receipt from a crane with no directive pending leaves its report. -/
theorem accepted_of_idle (idle : (s.cranes[k]).directive = none) (d : PendingDirective) (way : Acceptance) :
    accepted k d way s = report (.directive k d.number d.kind d.move way) s :=
  congrArg (report _) (settledDirective_of_idle idle)

theorem accepted_evaluate_uplinkFree (d : PendingDirective) {f : State → State} (free : UplinkFree f) :
    UplinkFree fun s => evaluate k (accepted k d .normal (f s)) :=
  (evaluate_uplinkFree k).comp ((accepted_uplinkFree k d .normal).comp free)

theorem modCrane_uplinkFree (k : CraneNo) (f : Crane → Crane) : UplinkFree (modCrane k f) := fun _ _ => rfl

/-- Settles O35: the acceptance at receipt leaves its report, and an evaluation of the crane follows. -/
theorem resumeAndReturnTaken : Obligations.ResumeAndReturnTaken := by
  intro s t k o ready up
  refine ⟨fun kind => ?_, fun kind other => ?_, fun kind withdrawn => ?_⟩
  · intro w u
    have idle : (w.cranes[k]).directive = none := by
      rw [show w.cranes[k] = { s.cranes[k] with held := false } from modCrane_same ..]
      exact ready.idle
    have taken := directive_done ready (accepted_evaluate_uplinkFree ⟨o.number, .resume, o.move, s.clock⟩
      (modCrane_uplinkFree k fun c => { c with held := false })) (by unfold applyDirective; rw [kind]; rfl)
    rw [kind, accepted_of_idle idle] at taken
    exact ⟨taken, (QReach.workFrame ((report_quiet _ _).trans (evaluate_quiet ..))).withUplink up⟩
  · have refused := directive_turned_down (r := .state) ready (by
      unfold applyDirective
      rw [kind]
      exact if_pos other)
    rw [kind] at refused
    exact refused
  · intro v w u
    have tested : testBerth (some k) v = offered (berthReport k s w) w := by
      rw [testBerth_eq, offered_of_same (s := v) (t := w) _ rfl rfl rfl]
      rfl
    have idle : ((testBerth (some k) v).cranes[k]).directive = none := by
      rw [testBerth_cranes, show v.cranes[k] = { s.cranes[k] with mode := .inService } from modCrane_same ..]
      exact ready.idle
    have taken := directive_done ready (accepted_evaluate_uplinkFree ⟨o.number, .returnCrane, o.move, s.clock⟩
      ((testBerth_uplinkFree (some k)).comp (modCrane_uplinkFree k fun c => { c with mode := .inService }))) (by
        unfold applyDirective
        rw [kind]
        exact if_neg (not_not.2 withdrawn))
    rw [kind, accepted_of_idle idle, tested] at taken
    refine ⟨?_, (QReach.workFrame (.trans ?_ (evaluate_quiet ..))).withUplink up⟩
    · refine taken.trans (congrArg (fun x => Host.Outcome.next (withUplink up (evaluate k x))) ?_)
      exact (offered_append (berthReport k s w) [.directive k o.number .returnCrane o.move .normal] w).symm
    · exact QReach.foldl (fun x i => report i x) (fun x i => report_quiet i x) _ w

end

end Sys2Proof.Machine


/-! PROOFS. Slots released by their state, and a move voided (R95, R96, R20, R21). -/

namespace Sys2Proof.Machine

variable {s t : State} {k : CraneNo} {r : MoveRecord}

/-! ### A record removed (R21) -/

/-- A record whose after-move, where it named `n`, is made absent, and that is evaluated then. -/
def dependentFreed (s : State) (n : MoveNo) (r : MoveRecord) : MoveRecord :=
  if r.afterMove = some n then
    (if r.busy then { r with afterMove := none } else evaluateRecord s { r with afterMove := none })
  else r

theorem dependentFreed_same (s : State) (n : MoveNo) (r : MoveRecord) : dependentFreed s n r = { r with
    afterMove := if r.afterMove = some n then none else r.afterMove
    state := (dependentFreed s n r).state, readyTime := (dependentFreed s n r).readyTime } := by
  unfold dependentFreed
  by_cases named : r.afterMove = some n
  · simp only [named, if_true]
    split
    · rfl
    · exact evaluateRecord_same s { r with afterMove := none }
  · simp only [named, if_false]

theorem clearAfterMove_eq (n : MoveNo) (s : State) : clearAfterMove n s = mapMoves (dependentFreed s n) s := rfl

theorem removed_queues (j : CraneNo) : (removed k r s).queues[j] =
    (if j = k then without r.number s.queues[k] else s.queues[j]).map (dependentFreed s r.number) := by
  have freed (x : MoveRecord) :
      dependentFreed (setQueue k (without r.number s.queues[k]) s) r.number x = dependentFreed s r.number x := by
    unfold dependentFreed
    rw [evaluateRecord_congr (t := setQueue k (without r.number s.queues[k]) s) (s := s) rfl rfl rfl]
  show (clearAfterMove r.number (setQueue k (without r.number s.queues[k]) s)).queues[j] = _
  rw [clearAfterMove_eq, mapMoves_get, setQueue_get, funext freed]

theorem removed_state (k : CraneNo) (r : MoveRecord) (s : State) : removed k r s = { s with
    queues := (removed k r s).queues, lanes := (removed k r s).lanes } := rfl

theorem removed_lanes (l : LaneNo) : (removed k r s).lanes[l] = { s.lanes[l] with
    request := (s.lanes[l]).request.filter fun q => decide (q.move ≠ r.number) } := by
  unfold removed withdrawRequests
  rw [mapLanes_get]
  simp only [ne_eq, decide_not]
  rfl

theorem removed_numbers (j : CraneNo) : queueNumbers (removed k r s) j =
    if j = k then (queueNumbers s k).filter fun n => decide (n ≠ r.number) else queueNumbers s j := by
  have kept (x : MoveRecord) : (dependentFreed s r.number x).number = x.number := by rw [dependentFreed_same]
  unfold queueNumbers
  rw [removed_queues, List.map_map, show (fun x : MoveRecord => x.number) ∘ dependentFreed s r.number =
    fun x => x.number from funext kept]
  split
  · unfold without
    rw [List.filter_map]
    rfl
  · rfl

theorem removed_independent {x : MoveRecord} {j : CraneNo} (mem : x ∈ (removed k r s).queues[j]) :
    x.afterMove ≠ some r.number := by
  rw [removed_queues] at mem
  obtain ⟨y, -, rfl⟩ := List.mem_map.1 mem
  rw [dependentFreed_same]
  dsimp only
  split
  · nofun
  · assumption

/-! ### A record freed: the lashing table told -/

theorem freeRecord_lashed (k : CraneNo) (r : MoveRecord) (s : State) :
    Lashed (deckWork (removed k r s)) (removed k r s) (freeRecord k r s) := by
  have lost := deckPointsLost_lashed (worked_deckWork (removed k r s)) (deckAreas s r)
  exact lost.trans (queueChanged_lashed ((worked_deckWork _).relashed lost.toRelashed) k)

theorem freeRecord_lanes (l : LaneNo) : (freeRecord k r s).lanes[l] = { s.lanes[l] with
    request := (s.lanes[l]).request.filter fun q => decide (q.move ≠ r.number) } := by
  rw [(freeRecord_lashed k r s).lanes]
  exact removed_lanes l

theorem freeRecord_cranes (k : CraneNo) (r : MoveRecord) (s : State) : (freeRecord k r s).cranes = s.cranes :=
  (freeRecord_lashed k r s).cranes

theorem freeRecord_numbers (j : CraneNo) : queueNumbers (freeRecord k r s) j =
    if j = k then (queueNumbers s k).filter fun n => decide (n ≠ r.number) else queueNumbers s j := by
  obtain ⟨f, queues, follow⟩ := (freeRecord_lashed k r s).records
  rw [queueNumbers_map (queues j) fun x => (follow x).number]
  exact removed_numbers j

theorem freeRecord_independent {x : MoveRecord} (mem : x ∈ pool (freeRecord k r s)) : x.afterMove ≠ some r.number := by
  obtain ⟨f, queues, follow⟩ := (freeRecord_lashed k r s).records
  obtain ⟨j, mem⟩ := (mem_pool_iff ..).1 mem
  rw [queues] at mem
  obtain ⟨y, old, rfl⟩ := List.mem_map.1 mem
  rw [show (f y).afterMove = y.afterMove by rw [(follow y).same]]
  exact removed_independent old

theorem freeRecord_of_areas (areas : (freeRecord k r s).areas = s.areas) : freeRecord k r s = removed k r s :=
  (freeRecord_lashed k r s).eq_of_areas areas

/-! ### A record voided -/

/-- The staged slot emptied where the record is STAGED. -/
def unstaged (k : CraneNo) (r : MoveRecord) (s : State) : State :=
  if r.state = .staged then modCrane k (fun x => { x with staged := none }) s else s

/-- And the slot that the record holds released with the cause VOIDED. -/
def givenUp (k : CraneNo) (r : MoveRecord) (s : State) : State :=
  r.lane.elim (unstaged k r s) (releaseSlot .voided (unstaged k r s))

theorem voidRecord_eq (k : CraneNo) (r : MoveRecord) (c : MoveCause) (s : State) :
    voidRecord k r c s = report (.moveState r.number k c) (freeRecord k r (givenUp k r s)) := by
  unfold voidRecord givenUp unstaged
  cases r.lane <;> rfl

theorem unstaged_crane (j : CraneNo) : (unstaged k r s).cranes[j] =
    if j = k ∧ r.state = .staged then { s.cranes[k] with staged := none } else s.cranes[j] := by
  unfold unstaged
  by_cases staged : r.state = .staged
  · simp only [staged, if_true, and_true]
    exact modCrane_get ..
  · simp only [staged, if_false, and_false]

theorem unstaged_state (k : CraneNo) (r : MoveRecord) (s : State) :
    unstaged k r s = { s with cranes := (unstaged k r s).cranes } := by
  unfold unstaged
  split <;> rfl

theorem givenUp_lanes (m : LaneNo) : (givenUp k r s).lanes[m] = { s.lanes[m] with
    slot := if r.lane = some m then releasedSlot (s.lanes[m]).slot else (s.lanes[m]).slot } := by
  unfold givenUp
  cases r.lane with
  | none =>
    rw [unstaged_state]
    rfl
  | some l =>
    rw [Option.elim_some, releaseSlot_lanes, show (unstaged k r s).lanes = s.lanes by rw [unstaged_state]]
    by_cases here : m = l
    · rw [if_pos here, if_pos (congrArg some here.symm), here]
      rfl
    · rw [if_neg here, if_neg fun same => here (Option.some.inj same).symm]

theorem givenUp_state (k : CraneNo) (r : MoveRecord) (s : State) : givenUp k r s = { s with
    cranes := (unstaged k r s).cranes, lanes := (givenUp k r s).lanes, queues := (givenUp k r s).queues
    gateMarks := (givenUp k r s).gateMarks, reports := (givenUp k r s).reports } := by
  unfold givenUp
  cases r.lane with
  | none =>
    rw [Option.elim_none]
    conv_lhs => rw [unstaged_state]
    rw [unstaged_state]
  | some l =>
    rw [Option.elim_some]
    conv_lhs => rw [releaseSlot_state]
    rw [unstaged_state]

theorem givenUp_reports (k : CraneNo) (r : MoveRecord) (s : State) : (givenUp k r s).reports =
    (offered (r.lane.elim [] fun l => cancelReport l .voided (s.lanes[l]).slot) s).reports := by
  unfold givenUp
  cases r.lane with
  | none =>
    rw [unstaged_state]
    rfl
  | some l =>
    rw [Option.elim_some, Option.elim_some, releaseSlot_reports]
    rw [show (unstaged k r s).lanes = s.lanes by rw [unstaged_state]]
    refine offered_reports_congr _ ?_ ?_ ?_ <;> rw [unstaged_state]

theorem givenUp_queues : ∃ f : MoveRecord → MoveRecord, (∀ j : CraneNo, (givenUp k r s).queues[j] = (s.queues[j]).map f) ∧
    ∀ x, f x = { x with lane := (f x).lane, called := (f x).called } := by
  have queues : (unstaged k r s).queues = s.queues := by rw [unstaged_state]
  unfold givenUp
  cases r.lane with
  | none => exact ⟨id, fun j => by rw [Option.elim_none, queues, List.map_id], fun x => rfl⟩
  | some l =>
    refine ⟨clearedFor ((unstaged k r s).lanes[l]).slot.move, fun j => ?_, fun x => ?_⟩
    · rw [Option.elim_some, releaseSlot_queues, queues]
    · unfold clearedFor
      split <;> rfl

theorem givenUp_numbers (j : CraneNo) : queueNumbers (givenUp k r s) j = queueNumbers s j := by
  obtain ⟨f, queues, same⟩ := givenUp_queues (k := k) (r := r) (s := s)
  exact queueNumbers_map (queues j) fun x => by rw [same]

section
variable {c : MoveCause}

theorem voidRecord_lanes (m : LaneNo) : (voidRecord k r c s).lanes[m] = { s.lanes[m] with
    slot := if r.lane = some m then releasedSlot (s.lanes[m]).slot else (s.lanes[m]).slot
    request := (s.lanes[m]).request.filter fun q => decide (q.move ≠ r.number) } := by
  rw [voidRecord_eq, report_lanes, freeRecord_lanes, givenUp_lanes]

theorem voidRecord_crane (j : CraneNo) : (voidRecord k r c s).cranes[j] =
    if j = k ∧ r.state = .staged then { s.cranes[k] with staged := none } else s.cranes[j] := by
  rw [voidRecord_eq, report_cranes, freeRecord_cranes, givenUp_state]
  exact unstaged_crane j

theorem voidRecord_numbers (j : CraneNo) : queueNumbers (voidRecord k r c s) j =
    if j = k then (queueNumbers s k).filter fun n => decide (n ≠ r.number) else queueNumbers s j := by
  have queues : (voidRecord k r c s).queues = (freeRecord k r (givenUp k r s)).queues := by
    rw [voidRecord_eq, report_queues]
  unfold queueNumbers
  rw [queues]
  show queueNumbers (freeRecord k r (givenUp k r s)) j = _
  rw [freeRecord_numbers, givenUp_numbers, givenUp_numbers]
  rfl

theorem voidRecord_independent {x : MoveRecord} (mem : x ∈ pool (voidRecord k r c s)) : x.afterMove ≠ some r.number := by
  have same : pool (voidRecord k r c s) = pool (freeRecord k r (givenUp k r s)) := by
    unfold pool
    rw [voidRecord_eq, report_queues]
  exact freeRecord_independent (same ▸ mem)

theorem voidRecord_reports (areas : (voidRecord k r c s).areas = s.areas) : (voidRecord k r c s).reports =
    (offered ((r.lane.elim [] fun l => cancelReport l .voided (s.lanes[l]).slot) ++ [.moveState r.number k c]) s).reports := by
  have still : freeRecord k r (givenUp k r s) = removed k r (givenUp k r s) := by
    refine freeRecord_of_areas ?_
    rw [show (givenUp k r s).areas = s.areas by rw [givenUp_state], ← areas, voidRecord_eq, report_areas]
  rw [voidRecord_eq, still, offered_append]
  refine report_reports_congr _ (givenUp_reports k r s) ?_ ?_ <;>
    rw [removed_state, givenUp_state, offered_state]

end

/-- Settles O23: one slot by its state, the slots of one cause in lane order, and a voiding through the record's slot, the
removal of the record and the lashing table's answer. -/
theorem slotReleasedByItsState : Obligations.SlotReleasedByItsState := by
  refine ⟨fun c s l => ⟨fun unnamed => releaseSlot_of_unnamed unnamed c, fun m named => releaseSlot_of_named named c⟩,
    fun c p s free => ?_, fun k r c s => ?_⟩
  · intro freed t
    have t_eq : t = slotsFreed c freed lanes s := releaseSlots_eq free s
    rw [t_eq]
    refine ⟨fun l => ?_, slotsFreed_reports lanes_nodup s, slotsFreed_state lanes s⟩
    rw [slotsFreed_lanes lanes_nodup]
    by_cases yes : freed l = true
    · rw [if_pos ⟨List.mem_finRange l, yes⟩, if_pos yes]
      rfl
    · rw [if_neg fun h => yes h.2, if_neg yes]
  · exact ⟨voidRecord_lanes, voidRecord_crane, voidRecord_numbers, fun x mem => voidRecord_independent mem,
      ⟨_, voidRecord_eq k r c s⟩, voidRecord_reports⟩

end Sys2Proof.Machine


/-! PROOFS. What follows a voiding, and SKIP and PROMOTE (R20, R124, R125). -/

namespace Sys2Proof.Machine

variable {s t u : State} {k : CraneNo} {r : MoveRecord} {c : MoveCause}

/-! ### The frame of a voiding -/

/-- One queue written in two ways that plan the same for each record. -/
theorem SameMoves.map₂ {f g : MoveRecord → MoveRecord} (h : ∀ x, SamePlan (f x) (g x)) (q : List MoveRecord) :
    SameMoves (q.map f) (q.map g) where
  numbers := by
    rw [List.map_map, List.map_map]
    exact (List.Perm.of_eq (List.map_congr_left fun x _ => (h x).number)).subperm
  kept := fun x hx => by
    obtain ⟨y, hy, rfl⟩ := List.mem_map.1 hx
    exact ⟨g y, List.mem_map_of_mem hy, (h y).number⟩
  plan := fun x hx => by
    obtain ⟨y, hy, rfl⟩ := List.mem_map.1 hx
    exact ⟨f y, List.mem_map_of_mem hy, h y⟩

theorem without_map {f : MoveRecord → MoveRecord} (number : ∀ x, (f x).number = x.number) (n : MoveNo)
    (q : List MoveRecord) : without n (q.map f) = (without n q).map f := by
  unfold without
  rw [List.filter_map]
  congr 2
  funext x
  rw [Function.comp_apply, number]

/-- The after-move made absent where it named `n`. -/
def independentOf (n : MoveNo) (x : MoveRecord) : MoveRecord :=
  if x.afterMove = some n then { x with afterMove := none } else x

theorem voided_queues (j : CraneNo) : (voided k r s).queues[j] =
    (if j = k then without r.number s.queues[k] else s.queues[j]).map (independentOf r.number) := by
  show (mapMoves (independentOf r.number) (setQueue k (without r.number s.queues[k]) (unstaged k r s))).queues[j] = _
  rw [mapMoves_get, setQueue_get, unstaged_state]

theorem voided_state (k : CraneNo) (r : MoveRecord) (s : State) : voided k r s = { s with
    queues := (voided k r s).queues, cranes := (unstaged k r s).cranes } := by
  unfold voided unstaged
  split <;> rfl

theorem removed_givenUp_moves (j : CraneNo) :
    SameMoves (voided k r s).queues[j] (removed k r (givenUp k r s)).queues[j] := by
  obtain ⟨f, queues, same⟩ := givenUp_queues (k := k) (r := r) (s := s)
  have number (x : MoveRecord) : (f x).number = x.number := by rw [same]
  have planned (x : MoveRecord) :
      SamePlan (independentOf r.number x) (dependentFreed (givenUp k r s) r.number (f x)) := by
    rw [dependentFreed_same, same]
    unfold independentOf
    split <;> exact ⟨rfl, rfl, rfl, rfl, rfl⟩
  have both : (if j = k then without r.number (givenUp k r s).queues[k] else (givenUp k r s).queues[j]) =
      (if j = k then without r.number s.queues[k] else s.queues[j]).map f := by
    rw [queues, queues, without_map number]
    split <;> rfl
  rw [voided_queues, removed_queues, both, List.map_map]
  exact SameMoves.map₂ planned _

theorem removed_givenUp_workFrame (k : CraneNo) (r : MoveRecord) (s : State) :
    WorkFrame (voided k r s) (removed k r (givenUp k r s)) := by
  have lane (l : LaneNo) : (removed k r (givenUp k r s)).lanes[l] = { s.lanes[l] with
      slot := if r.lane = some l then releasedSlot (s.lanes[l]).slot else (s.lanes[l]).slot
      request := (s.lanes[l]).request.filter fun q => decide (q.move ≠ r.number) } := by
    rw [removed_lanes, givenUp_lanes]
  have moves := removed_givenUp_moves (k := k) (r := r) (s := s)
  have before := voided_state k r s
  have after : removed k r (givenUp k r s) = { s with
      cranes := (unstaged k r s).cranes, queues := (removed k r (givenUp k r s)).queues
      lanes := (removed k r (givenUp k r s)).lanes, gateMarks := (givenUp k r s).gateMarks
      reports := (givenUp k r s).reports } := by
    conv_lhs => rw [removed_state]
    rw [givenUp_state]
  generalize removed k r (givenUp k r s) = x at lane moves after ⊢
  generalize voided k r s = v at moves before ⊢
  have lanes_v : v.lanes = s.lanes := by rw [before]
  refine ⟨?_, ?_, ?_, ?_, ?_, ?_, ?_, ?_, ?_, ?_, fun j => ?_, moves, fun l => ?_, fun g => ?_, fun a => ?_⟩
  case refine_11 =>
    rw [show x.cranes = v.cranes by rw [after, before]]
    exact .refl _
  case refine_12 =>
    rw [lanes_v, lane]
    exact ⟨rfl, rfl, rfl, rfl, rfl, rfl, fun _ h => h⟩
  case refine_13 =>
    rw [show x.gangs = v.gangs by rw [after, before]]
    exact ⟨rfl, fun _ => rfl⟩
  case refine_14 => rw [show x.areas = v.areas by rw [after, before]]
  all_goals rw [after, before]

theorem freeRecord_quiet (k : CraneNo) (r : MoveRecord) (s : State) : QReach (removed k r s) (freeRecord k r s) :=
  .trans (deckPointsLost_quiet ..) (queueChanged_quiet ..)

theorem voidRecord_workFrame (k : CraneNo) (r : MoveRecord) (c : MoveCause) (s : State) :
    WorkFrame (voided k r s) (voidRecord k r c s) := by
  rw [voidRecord_eq]
  exact (removed_givenUp_workFrame k r s).trans
    (QReach.workFrame (.trans (freeRecord_quiet ..) (report_quiet ..)))

/-! ### What follows a voiding -/

theorem mem_dependentsMadeReady_iff (j : CraneNo) :
    j ∈ dependentsMadeReady r.number s ↔ ∃ x ∈ s.queues[j], MadeReadyBy s r x := by
  unfold dependentsMadeReady
  rw [List.mem_filter, List.any_eq_true]
  simp only [Bool.and_eq_true, decide_eq_true_eq, and_assoc]
  exact and_iff_right (List.mem_finRange j)

theorem dependentsMadeReady_eq (r : MoveRecord) (s : State) : dependentsMadeReady r.number s =
    cranes.filter fun j => decide (∃ x ∈ s.queues[j], MadeReadyBy s r x) := by
  have same : dependentsMadeReady r.number s =
      cranes.filter fun j => decide (j ∈ dependentsMadeReady r.number s) := by
    unfold dependentsMadeReady
    refine List.filter_congr fun j mem => ?_
    rw [Bool.eq_iff_iff, decide_eq_true_iff, List.mem_filter]
    exact (and_iff_right mem).symm
  rw [same]
  refine List.filter_congr fun j _ => ?_
  rw [decide_eq_decide]
  exact mem_dependentsMadeReady_iff j

theorem voidAndFollow_eq (k : CraneNo) (r : MoveRecord) (c : MoveCause) (s : State) :
    voidAndFollow k r c s = afterVoiding k r s (voidRecord k r c s) := by
  unfold voidAndFollow afterVoiding
  dsimp only
  split
  · congr 2
    refine List.filter_congr fun j _ => ?_
    rw [decide_eq_decide, mem_dependentsMadeReady_iff]
  · rw [dependentsMadeReady_eq]

theorem afterVoiding_quiet (k : CraneNo) (r : MoveRecord) (s v : State) : QReach v (afterVoiding k r s v) := by
  unfold afterVoiding
  dsimp only
  split
  · exact .trans (testAgreement_quiet ..) (.trans (evaluateMany_quiet ..) (dispatchPass_quiet _))
  · exact evaluateMany_quiet ..

theorem afterVoiding_of_alone {v : State} (unstaged : r.state ≠ .staged) (alone : ∀ x ∈ pool s, ¬MadeReadyBy s r x) :
    afterVoiding k r s v = v := by
  have none : (cranes.filter fun j => decide (∃ x ∈ s.queues[j], MadeReadyBy s r x)) = [] :=
    List.filter_eq_nil_iff.2 fun j _ made => by
      obtain ⟨x, mem, made⟩ := of_decide_eq_true made
      exact alone x ((mem_pool_iff ..).2 ⟨j, mem⟩) made
  unfold afterVoiding
  dsimp only
  rw [if_neg unstaged, none]
  rfl

theorem voidAndFollow_workFrame (k : CraneNo) (r : MoveRecord) (c : MoveCause) (s : State) :
    WorkFrame (voided k r s) (voidAndFollow k r c s) := by
  rw [voidAndFollow_eq]
  exact (voidRecord_workFrame k r c s).trans (QReach.workFrame (afterVoiding_quiet ..))

theorem voidAndFollow_directive (k j : CraneNo) (r : MoveRecord) (c : MoveCause) (s : State) :
    ((voidAndFollow k r c s).cranes[j]).directive = (s.cranes[j]).directive := by
  rw [((voidAndFollow_workFrame k r c s).cranes j).directive, voided_state]
  rw [show (unstaged k r s).cranes[j] = if j = k ∧ r.state = .staged then { s.cranes[k] with staged := none }
    else s.cranes[j] from unstaged_crane j]
  split
  · next here => rw [here.1]
  · rfl

/-! ### PROMOTE (R125) -/

theorem withoutStale_queues (k : CraneNo) (s : State) : (withoutStale k s).queues = s.queues := rfl

/-- The queue with the promoted record set behind the busy ones. -/
def promotedQueue (n : MoveNo) (r : MoveRecord) (q : List MoveRecord) : List MoveRecord :=
  placeBehindBusy r (without n q)

/-- What a PROMOTE makes of the state but for its report. -/
def promoted (k : CraneNo) (n : MoveNo) (r : MoveRecord) (s : State) : State :=
  if promotedQueue n r s.queues[k] = s.queues[k] then s
  else evaluate k (queueChanged k (setQueue k (promotedQueue n r s.queues[k]) s))

theorem setQueue_self (k : CraneNo) (s : State) : setQueue k s.queues[k] s = s := by
  have queues : (setQueue k s.queues[k] s).queues = s.queues := by
    refine Vector.ext_get fun j => ?_
    rw [setQueue_get]
    split
    · next same => rw [same]
    · rfl
  exact congrArg (fun q => { s with queues := q }) queues

theorem promoted_quiet (k : CraneNo) (n : MoveNo) (r : MoveRecord) (s : State) :
    QReach (setQueue k (promotedQueue n r s.queues[k]) s) (promoted k n r s) := by
  unfold promoted
  split
  · next same =>
    rw [same, setQueue_self]
  · exact .trans (queueChanged_quiet ..) (evaluate_quiet ..)

theorem promoted_uplinkFree (k : CraneNo) (n : MoveNo) (r : MoveRecord) : UplinkFree (promoted k n r) := fun u s => by
  unfold promoted
  rw [show (withUplink u s).queues = s.queues from rfl]
  split
  · rfl
  · rw [show setQueue k (promotedQueue n r s.queues[k]) (withUplink u s) =
      withUplink u (setQueue k (promotedQueue n r s.queues[k]) s) from rfl,
      queueChanged_uplinkFree, evaluate_uplinkFree]

/-- Where the release condition does not hold the queue stands in its new order, and where no area changes either the
records are as they were. -/
theorem promoted_of_closed (n : MoveNo) (r : MoveRecord) (closed : releaseCondition s k = false) :
    queueNumbers (promoted k n r s) k = (promotedQueue n r s.queues[k]).map (·.number) ∧
    ((promoted k n r s).areas = s.areas → (promoted k n r s).queues = s.queues.set k (promotedQueue n r s.queues[k])) := by
  unfold promoted
  split
  · next same => exact ⟨by rw [same]; rfl, fun _ => by
      conv_lhs => rw [← setQueue_self k s]
      rw [same]
      rfl⟩
  · have told := queueChanged_lashed (worked_deckWork (setQueue k (promotedQueue n r s.queues[k]) s)) k
    have shut : releaseCondition (queueChanged k (setQueue k (promotedQueue n r s.queues[k]) s)) k = false := by
      rw [← closed]
      refine releaseCondition_congr k told.cranes ?_ ?_ <;> rw [told.rest] <;> rfl
    rw [evaluate_of_closed shut]
    refine ⟨?_, fun areas => ?_⟩
    · obtain ⟨f, queues, follow⟩ := told.records
      refine .trans (queueNumbers_map (queues k) fun x => (follow x).number) ?_
      unfold queueNumbers
      rw [setQueue_get, if_pos rfl]
    · rw [withoutStale_queues, told.eq_of_areas areas]
      rfl

/-! ### SKIP and PROMOTE as directives -/

section
variable {tele : Telegram} {o : DirectiveOrder} {n : MoveNo}

theorem findIn_popInbound (k : CraneNo) (n : MoveNo) (s : State) : findIn (popInbound s) k n = findIn s k n := by
  rw [popInbound_eq]
  rfl

theorem skip_unknown (ready : DirectiveReady s tele k o) (named : o.move = some n) (kind : o.kind = .skip)
    (absent : findIn s k n = none) : exec .skip s = .next (answeredOnly s tele .unknown) := by
  have refused := directive_turned_down (r := .unknown) ready (by
    unfold applyDirective skipMove
    rw [kind, named, Option.getD_some, findIn_popInbound, absent])
  rw [kind] at refused
  exact refused

theorem skip_collides (ready : DirectiveReady s tele k o) (named : o.move = some n) (kind : o.kind = .skip)
    (found : findIn s k n = some r) (active : r.state = .active) : exec .skip s = .next (answeredOnly s tele .collision) := by
  have refused := directive_turned_down (r := .collision) ready (by
    unfold applyDirective skipMove
    rw [kind, named, Option.getD_some, findIn_popInbound, found]
    exact if_pos active)
  rw [kind] at refused
  exact refused

theorem skip_done (ready : DirectiveReady s tele k o) (named : o.move = some n) (kind : o.kind = .skip)
    (found : findIn s k n = some r) (inactive : r.state ≠ .active) :
    exec .skip s = .next (withUplink (answeredUplink s.uplink tele .accepted [] none)
      (report (.directive k o.number .skip (some n) .normal) (voidAndFollow k r .voidedSkip s))) := by
  have idle : ((voidAndFollow k r .voidedSkip s).cranes[k]).directive = none :=
    (voidAndFollow_directive ..).trans ready.idle
  have taken := directive_done ready
    ((accepted_uplinkFree k ⟨o.number, .skip, o.move, s.clock⟩ .normal).comp (voidAndFollow_uplinkFree k r .voidedSkip)) (by
      unfold applyDirective skipMove
      rw [kind, named, Option.getD_some, findIn_popInbound, found]
      exact if_neg inactive)
  rw [kind, accepted_of_idle idle, named] at taken
  exact taken

theorem promote_refused (ready : DirectiveReady s tele k o) (named : o.move = some n) (kind : o.kind = .promote)
    (unmoved : ∀ r, findIn s k n = some r → r.busy = true) : exec .promote s = .next (answeredOnly s tele .state) := by
  have refused := directive_turned_down (r := .state) ready (by
    unfold applyDirective promoteMove
    rw [kind, named, Option.getD_some, findIn_popInbound]
    cases found : findIn s k n with
    | none => rfl
    | some r => exact if_pos (unmoved r found))
  rw [kind] at refused
  exact refused

theorem promoted_directive (k : CraneNo) (n : MoveNo) (r : MoveRecord) (s : State) :
    ((promoted k n r s).cranes[k]).directive = (s.cranes[k]).directive :=
  (QReach.crane (promoted_quiet k n r s) k).directive

theorem promote_done (ready : DirectiveReady s tele k o) (named : o.move = some n) (kind : o.kind = .promote)
    (found : findIn s k n = some r) (idle : r.busy = false) :
    exec .promote s = .next (withUplink (answeredUplink s.uplink tele .accepted [] none)
      (report (.directive k o.number .promote (some n) .normal) (promoted k n r s))) := by
  have unheld : ((promoted k n r s).cranes[k]).directive = none := (promoted_directive ..).trans ready.idle
  have taken := directive_done ready
    ((accepted_uplinkFree k ⟨o.number, .promote, o.move, s.clock⟩ .normal).comp (promoted_uplinkFree k n r)) (by
      unfold applyDirective promoteMove
      rw [kind, named, Option.getD_some, findIn_popInbound, found]
      exact if_neg (by rw [idle]; decide))
  rw [kind, accepted_of_idle unheld, named] at taken
  exact taken

/-- Settles O36: a SKIP is a voiding with what follows it, and a PROMOTE a queue written anew with lashing tests and one
evaluation after it. -/
theorem skipAndPromoteTaken : Obligations.SkipAndPromoteTaken := by
  intro s t k o n ready named up
  refine ⟨fun kind => ⟨skip_unknown ready named kind, fun r found => ⟨skip_collides ready named kind found,
    fun inactive => ?_⟩⟩, fun kind => ⟨fun absent => promote_refused ready named kind fun r found => ?_,
    fun r found => ⟨fun busy => promote_refused ready named kind fun x other => ?_, fun idle => ?_⟩⟩⟩
  · have taken := skip_done ready named kind found inactive
    rw [voidAndFollow_eq] at taken
    refine ⟨taken, ?_, fun unstaged alone => ?_⟩
    · rw [← voidAndFollow_eq]
      exact ((voidAndFollow_workFrame k r .voidedSkip s).trans (QReach.workFrame (report_quiet ..))).withUplink up
    · rw [afterVoiding_of_alone unstaged alone]
  · rw [absent] at found
    cases found
  · rw [found] at other
    exact Option.some.inj other ▸ busy
  · have taken := promote_done ready named kind found idle
    refine ⟨taken, (QReach.workFrame (.trans (promoted_quiet k n r s) (report_quiet ..))).withUplink up, fun closed => ?_⟩
    obtain ⟨numbers, still⟩ := promoted_of_closed n r closed
    have queues : (report (.directive k o.number .promote (some n) .normal) (promoted k n r s)).queues =
        (promoted k n r s).queues := report_queues ..
    have areas : (report (.directive k o.number .promote (some n) .normal) (promoted k n r s)).areas =
        (promoted k n r s).areas := report_areas ..
    refine ⟨?_, fun same => queues.trans (still (areas.symm.trans same))⟩
    unfold queueNumbers at numbers ⊢
    exact (congrArg (fun q : Vector (List MoveRecord) 8 => (q[k]).map (·.number)) queues).trans numbers

end

end Sys2Proof.Machine


/-! PROOFS. What the evaluation of one crane leaves of another: its context, its queue's order, and a record followed. -/

namespace Sys2Proof.Machine

/-! ### Work done beside crane `k` -/

/-- Steps that leave crane `k` and the order of its queue, follow its records whose numbers `N` names, keep every queue's
moves, lower no area's rank and raise no request of `k`; clock, bay map, stations and berth stay. -/
structure Beside (k : CraneNo) (N : MoveNo → Prop) (W : AreaNo → Bool) (s t : State) : Prop where
  clock : t.clock = s.clock
  bays : t.bays = s.bays
  stations : t.stations = s.stations
  berth : t.berth = s.berth
  crane : t.cranes[k] = s.cranes[k]
  records : ∃ f : MoveRecord → MoveRecord, t.queues[k] = (s.queues[k]).map f ∧
    ∀ r, (f r).number = r.number ∧ (N r.number → Followed s t r (f r))
  moves : ∀ i : CraneNo, SameMoves s.queues[i] t.queues[i]
  climb : ∀ a, areaRank W s a ≤ areaRank W t a
  requests : ∀ (l : LaneNo) (q : Request), (t.lanes[l]).request = some q → q.crane = k → (s.lanes[l]).request = some q

/-- Crane `j`'s queue holds no number of `N`, and every area with deck work is one of `W`. -/
structure Apart (j : CraneNo) (N : MoveNo → Prop) (W : AreaNo → Bool) (s : State) : Prop where
  numbers : ∀ m ∈ queueNumbers s j, ¬N m
  work : ∀ a, noDeckWork s a = false → W a = true

section
variable {k j : CraneNo} {N : MoveNo → Prop} {W : AreaNo → Bool} {s t u : State}

theorem Beside.refl (k : CraneNo) (N : MoveNo → Prop) (W : AreaNo → Bool) (s : State) : Beside k N W s s :=
  ⟨rfl, rfl, rfl, rfl, rfl, ⟨id, (List.map_id _).symm, fun _ => ⟨rfl, fun _ => followed_self (.inr rfl)⟩⟩, fun _ => .refl _,
    fun _ => le_refl _, fun _ _ h _ => h⟩

theorem Beside.trans (h : Beside k N W s t) (h' : Beside k N W t u) : Beside k N W s u where
  clock := h'.clock.trans h.clock
  bays := h'.bays.trans h.bays
  stations := h'.stations.trans h.stations
  berth := h'.berth.trans h.berth
  crane := h'.crane.trans h.crane
  records := by
    obtain ⟨f, queue, follow⟩ := h.records
    obtain ⟨f', queue', follow'⟩ := h'.records
    refine ⟨f' ∘ f, by rw [queue', queue, List.map_map], fun r => ?_⟩
    obtain ⟨number, followed⟩ := follow r
    obtain ⟨number', followed'⟩ := follow' (f r)
    exact ⟨number'.trans number, fun named => (followed named).trans h.clock (followed' (number ▸ named))⟩
  moves i := (h.moves i).trans (h'.moves i)
  climb a := (h.climb a).trans (h'.climb a)
  requests l q later own := h.requests l q (h'.requests l q later own) own

theorem Beside.numbers (h : Beside k N W s t) : queueNumbers t k = queueNumbers s k := by
  obtain ⟨f, queue, follow⟩ := h.records
  exact queueNumbers_map queue fun r => (follow r).1

theorem mem_numbers_of_moves (h : SameMoves s.queues[j] t.queues[j]) {m : MoveNo} (mem : m ∈ queueNumbers t j) :
    m ∈ queueNumbers s j := by
  obtain ⟨r', now, rfl⟩ := List.mem_map.1 mem
  obtain ⟨r, old, plan⟩ := h.plan r' now
  exact plan.number ▸ List.mem_map_of_mem old

theorem noDeckWork_of_moves (bays : t.bays = s.bays) (moves : ∀ i : CraneNo, SameMoves s.queues[i] t.queues[i])
    {a : AreaNo} (clear : noDeckWork s a = true) : noDeckWork t a = true := by
  unfold noDeckWork at clear ⊢
  rw [List.all_eq_true] at clear ⊢
  intro r' mem
  obtain ⟨i, mem⟩ := (mem_pool_iff ..).1 mem
  obtain ⟨r, old, plan⟩ := (moves i).plan r' mem
  have same : deckAreas t r' = deckAreas s r := by
    rw [deckAreas_congr bays]
    unfold deckAreas MoveRecord.points
    rw [plan.legs]
  rw [same]
  exact clear r ((mem_pool_iff ..).2 ⟨i, old⟩)

theorem Apart.beside (h : Apart j N W s) (b : Beside k N W s t) : Apart j N W t where
  numbers m mem := h.numbers m (mem_numbers_of_moves (b.moves j) mem)
  work a busy := by
    refine h.work a ?_
    by_contra clear
    rw [noDeckWork_of_moves b.bays b.moves (Bool.not_eq_false _ ▸ clear)] at busy
    cases busy

/-- Steps that leave clock, bay map, areas, the move table and crane `k`, and raise no request of it. -/
theorem Beside.of_same (queues : t.queues = s.queues) (areas : t.areas = s.areas) (bays : t.bays = s.bays)
    (clock : t.clock = s.clock) (stations : t.stations = s.stations) (berth : t.berth = s.berth)
    (crane : t.cranes[k] = s.cranes[k])
    (requests : ∀ (l : LaneNo) (q : Request), (t.lanes[l]).request = some q → q.crane = k → (s.lanes[l]).request = some q) :
    Beside k N W s t where
  clock := clock
  bays := bays
  stations := stations
  berth := berth
  crane := crane
  records := ⟨id, by rw [queues, List.map_id], fun r => ⟨rfl, fun _ => followed_self (.inr (eligible_congr areas bays r))⟩⟩
  moves i := by
    rw [queues]
    exact .refl _
  climb a := by
    unfold areaRank
    rw [areas]
  requests := requests

theorem Beside.of_relashed (h : Relashed W s t) : Beside k N W s t := by
  obtain ⟨f, queues, follow⟩ := h.records
  refine ⟨h.clock, h.bays, by rw [h.rest], by rw [h.rest], by rw [h.cranes], ⟨f, queues k, fun r => ⟨(follow r).number, fun _ => follow r⟩⟩, fun i => ?_,
    h.climb, fun l q => by rw [h.lanes]; exact fun later _ => later⟩
  rw [queues]
  refine SameMoves.map (fun r => ?_) _
  rw [(follow r).same]
  exact ⟨rfl, rfl, rfl, rfl, rfl⟩

theorem Beside.foldl {α : Type} {f : State → α → State} (step : ∀ s a, Apart j N W s → Beside k N W s (f s a))
    (as : List α) (apart : Apart j N W s) : Beside k N W s (as.foldl f s) := by
  induction as generalizing s with
  | nil => exact .refl ..
  | cons a as ih =>
    have first := step s a apart
    exact first.trans (ih (apart.beside first))

/-! ### One rule per operation -/

/-- A hold written for a move that `N` does not name. -/
theorem hold_beside (f : MoveRecord → Option LaneNo × Bool) {m : MoveNo} (unnamed : ¬N m) (s : State) :
    Beside k N W s (modMove m (fun r => { r with lane := (f r).1, called := (f r).2 }) s) := by
  have planned (r : MoveRecord) :
      SamePlan r (if r.number = m then { r with lane := (f r).1, called := (f r).2 } else r) := by
    split
    · exact ⟨rfl, rfl, rfl, rfl, rfl⟩
    · exact .refl r
  refine ⟨rfl, rfl, rfl, rfl, rfl, ⟨_, mapMoves_get .., fun r => ⟨(planned r).number, fun named => ?_⟩⟩, fun i => ?_,
    fun _ => le_refl _, fun _ _ h _ => h⟩
  · rw [if_neg fun same : r.number = m => unnamed (same ▸ named)]
    exact followed_self (.inr rfl)
  · rw [modMove, mapMoves_get]
    exact SameMoves.map planned _

theorem setSlot_beside (l : LaneNo) (x : Slot) (s : State) : Beside k N W s (setSlot l x s) := by
  rw [setSlot_eq_slotWritten]
  refine .of_same ?_ ?_ ?_ ?_ ?_ ?_ ?_ fun j q later _ => ?_
  case refine_8 =>
    rw [slotWritten_lanes, Vector.get_set] at later
    split at later
    · next here =>
      rw [here]
      exact later
    · exact later
  all_goals rw [slotWritten_state]

theorem withdrawRequests_beside (p : Request → Bool) (s : State) : Beside k N W s (withdrawRequests p s) := by
  refine .of_same (by simp) (by simp) (by simp) (by simp) (by simp) (by simp) (by simp) fun l q later _ => ?_
  rw [withdrawRequests, mapLanes_get] at later
  exact Option.filter_eq_some_iff.1 later |>.1

theorem owned_beside (l : LaneNo) (s : State) : Beside k N W s (modLane l
    (fun x => { x with owner := if x.use.sharedBy j && x.owner.isNone then some j else x.owner }) s) := by
  refine .of_same rfl rfl rfl rfl rfl rfl rfl fun i q later _ => ?_
  rw [modLane_get] at later
  split at later
  · next here =>
    rw [here]
    exact later
  · exact later

theorem reserve_beside {m : MoveNo} (unnamed : ¬N m) (l : LaneNo) (s : State) : Beside k N W s (reserve j m l s) := by
  have held : Beside k N W s (modMove m (fun r => { r with lane := some l, called := false }) (setSlot l (.reserved m) s)) :=
    (setSlot_beside ..).trans (hold_beside (fun _ => (some l, false)) unnamed _)
  exact (held.trans (owned_beside l _)).trans (withdrawRequests_beside ..)

theorem raiseRequest_beside (other : j ≠ k) (m : MoveNo) (s : State) : Beside k N W s (raiseRequest j m s) := by
  unfold raiseRequest
  split
  · exact .refl ..
  · split
    · refine .of_same rfl rfl rfl rfl rfl rfl rfl fun i q later own => ?_
      rw [modLane_get] at later
      split at later
      · cases later
        exact absurd own other
      · exact later
    · exact .refl ..

theorem dropStaleRequest_beside (s : State) : Beside k N W s (dropStaleRequest j s) := withdrawRequests_beside ..

theorem unlashTest_beside (apart : Apart j N W s) (a : AreaNo) : Beside k N W s (unlashTest s a) := by
  unfold unlashTest
  split
  · next due =>
    have work : W a = true := by
      refine apart.work a (Bool.not_eq_true' _ ▸ ?_)
      exact (worked_deckWork s a).symm.trans (worked_of_lead (worked_deckWork s) due)
    refine .of_relashed (Lashed.of_raise (d := .unlashWait) (c := .unlashQueued) ?_ _ (dispatchPass_relashed _)).toRelashed
    rw [work, unlashDue_deck due]
    decide
  · exact .refl ..

theorem queueChanged_beside (i : CraneNo) (apart : Apart j N W s) : Beside k N W s (queueChanged i s) :=
  Beside.foldl (fun _ a h => unlashTest_beside h a) _ apart

section
variable (other : j ≠ k)
include other

theorem testAgreement_beside (s : State) : Beside k N W s (testAgreement j s) :=
  .of_same rfl rfl rfl rfl rfl rfl ((modCrane_get ..).trans (if_neg other.symm)) fun _ _ h _ => h

/-- Crane `j`'s queue rewritten with its moves kept, and its context. -/
theorem setQueue_beside {q : List MoveRecord} (moves : SameMoves s.queues[j] q) (f : Crane → Crane) :
    Beside k N W s (modCrane j f (setQueue j q s)) := by
  refine ⟨rfl, rfl, rfl, rfl, ?_, ⟨id, ?_, fun r => ⟨rfl, fun _ => followed_self (.inr rfl)⟩⟩, fun i => ?_, fun _ => le_refl _,
    fun _ _ h _ => h⟩
  · exact (modCrane_get ..).trans (if_neg other.symm)
  · rw [List.map_id, modCrane_queues, setQueue_get, if_neg other.symm]
  · rw [modCrane_queues, setQueue_get]
    split
    · next same => exact same ▸ moves
    · exact .refl _

theorem toActive_beside {r : MoveRecord} (mem : r ∈ s.queues[j]) : Beside k N W s (toActive j r s) :=
  setQueue_beside other (SameMoves.front (r' := activate s j r) mem ⟨rfl, rfl, rfl, rfl, rfl⟩) _

theorem toStaged_beside {r : MoveRecord} (mem : r ∈ s.queues[j]) : Beside k N W s (toStaged j r s) :=
  setQueue_beside other ((SameMoves.front (r' := { r with state := .staged }) mem ⟨rfl, rfl, rfl, rfl, rfl⟩).perm
    (placeBehindActive_perm ..)) _

/-! ### The search and the release -/

theorem releaseMove_beside (apart : Apart j N W s) {c : Candidate} (unnamed : ¬N c.number) :
    Beside k N W s (releaseMove j c s) := by
  have reserved : Beside k N W s (reserveFound j c s) := by
    unfold reserveFound
    split
    · exact reserve_beside unnamed ..
    · exact .refl ..
  unfold releaseMove
  dsimp only
  split
  · exact reserved
  · next r found =>
    have moved : Beside k N W (reserveFound j c s) (if ((reserveFound j c s).cranes[j]).active.isNone
        then toActive j r (reserveFound j c s) else toStaged j r (reserveFound j c s)) := by
      split
      · exact toActive_beside other (findIn_mem found).1
      · exact toStaged_beside other (findIn_mem found).1
    have tested := (reserved.trans moved).trans (testAgreement_beside other _)
    exact tested.trans (queueChanged_beside j (apart.beside tested))

theorem searchMoves_beside (rs : List MoveRecord) (s : State) : Beside k N W s (searchMoves j rs s).1 := by
  induction rs generalizing s with
  | nil => exact .refl ..
  | cons r rs ih =>
    unfold searchMoves
    split
    · exact ih s
    · split
      · split
        · exact .refl ..
        · exact ih s
      · split
        · exact (raiseRequest_beside other ..).trans (ih _)
        · split
          · exact .refl ..
          · exact ih s

omit other in
theorem searchMoves_number {rs : List MoveRecord} {c : Candidate} (chosen : (searchMoves j rs s).2 = some c) :
    c.number ∈ rs.map (·.number) := by
  induction rs generalizing s with
  | nil => cases chosen
  | cons r rs ih =>
    unfold searchMoves at chosen
    split at chosen
    · exact List.mem_cons_of_mem _ (ih chosen)
    · split at chosen
      · split at chosen
        · cases chosen
          exact List.mem_cons_self
        · exact List.mem_cons_of_mem _ (ih chosen)
      · split at chosen
        · exact List.mem_cons_of_mem _ (ih chosen)
        · split at chosen
          · cases chosen
            exact List.mem_cons_self
          · exact List.mem_cons_of_mem _ (ih chosen)

omit other in
theorem mem_numbers_of_window {m : MoveNo} (mem : m ∈ (window s j).map (·.number)) : m ∈ queueNumbers s j := by
  obtain ⟨r, seen, rfl⟩ := List.mem_map.1 mem
  exact List.mem_map_of_mem ((List.dropWhile_sublist _).mem (List.mem_of_mem_take seen))

theorem searchAndRelease_beside (apart : Apart j N W s) : Beside k N W s (searchAndRelease j s) := by
  have searched := searchMoves_beside (N := N) (W := W) other (window s j) s
  unfold searchAndRelease
  split
  · next u eq =>
    rw [eq] at searched
    exact searched
  · next u c eq =>
    have chosen := mem_numbers_of_window (searchMoves_number (congrArg Prod.snd eq))
    rw [eq] at searched
    exact searched.trans (releaseMove_beside other (apart.beside searched) (apart.numbers _ chosen))

theorem evaluateOnce_beside (apart : Apart j N W s) : Beside k N W s (evaluateOnce j s) := by
  have dropped := dropStaleRequest_beside (k := k) (j := j) (N := N) (W := W) s
  have apart := apart.beside dropped
  refine dropped.trans ?_
  show Beside k N W (dropStaleRequest j s) (releaseWork j (dropStaleRequest j s))
  unfold releaseWork
  split
  · dsimp only
    have first := searchAndRelease_beside other apart
    split
    · exact first.trans (searchAndRelease_beside other (apart.beside first))
    · exact first
  · exact .refl ..

/-! ### The call check of an activation -/

omit other in
theorem unnamed_of_findIn (apart : Apart j N W s) {n : MoveNo} {r : MoveRecord} (found : findIn s j n = some r) :
    ¬N n := by
  obtain ⟨mem, rfl⟩ := findIn_mem found
  exact apart.numbers _ (List.mem_map_of_mem mem)

theorem checkReserve_beside (apart : Apart j N W s) (n : MoveNo) : Beside k N W s (checkReserve j n s) := by
  unfold checkReserve
  split
  · exact .refl ..
  · next r found =>
    split
    · split
      · exact reserve_beside (unnamed_of_findIn apart found) ..
      · exact raiseRequest_beside other ..
    · exact .refl ..

omit other in
theorem issueCall_beside {r : MoveRecord} (unnamed : ¬N r.number) (l : LaneNo) (a : Nat) (s : State) :
    Beside k N W s (issueCall r l a s) := by
  have held : Beside k N W s (modMove r.number (fun x => { x with called := true }) (setSlot l (.called r.number) s)) :=
    (setSlot_beside ..).trans (hold_beside (fun x => (x.lane, true)) unnamed _)
  exact held.trans (.of_relashed (report_relashed ..))

omit other in
theorem checkCall_beside (apart : Apart j N W s) (n : MoveNo) (a : Nat) : Beside k N W s (checkCall j n a s) := by
  unfold checkCall
  split
  · exact .refl ..
  · next r found =>
    split
    · exact .refl ..
    · split
      · refine issueCall_beside ?_ ..
        rw [(findIn_mem found).2]
        exact unnamed_of_findIn apart found
      · exact .refl ..

theorem checkMoves_beside (apart : Apart j N W s) : Beside k N W s (checkMoves j s) := by
  have dropped := dropStaleRequest_beside (k := k) (j := j) (N := N) (W := W) s
  refine dropped.trans (Beside.foldl (fun s x apart => ?_) _ (apart.beside dropped))
  have first := checkReserve_beside other apart x.1
  exact first.trans (checkCall_beside (apart.beside first) ..)

theorem evaluate_beside (apart : Apart j N W s) : Beside k N W s (evaluate j s) := by
  have first := evaluateOnce_beside other apart
  unfold evaluate
  dsimp only
  split
  · refine first.trans ?_
    have apart := apart.beside first
    unfold checkAfterActivation
    split
    · dsimp only
      have checked := checkMoves_beside other apart
      split
      · exact checked.trans (evaluateOnce_beside other (apart.beside checked))
      · exact checked
    · exact .refl ..
  · exact first

end

theorem Beside.condition (h : Beside k N W s t) : releaseCondition t k = releaseCondition s k := by
  unfold releaseCondition craneOpen stationState
  rw [h.crane, h.stations, h.berth]

theorem evaluate_beside_of_closed (closed : releaseCondition s k = false) : Beside k N W s (evaluate k s) := by
  rw [evaluate_of_closed closed, ← dropStaleRequest_eq]
  exact dropStaleRequest_beside s

/-- The evaluation of several cranes, `k` among them only where its release condition does not hold. -/
theorem evaluateMany_beside {ks : List CraneNo} (closed : k ∈ ks → releaseCondition s k = false)
    (apart : ∀ j, j ≠ k → Apart j N W s) : Beside k N W s (evaluateMany ks s) := by
  have one (j : CraneNo) (x : State) (mem : j ∈ ks) (closed : k ∈ ks → releaseCondition x k = false)
      (apart : ∀ j, j ≠ k → Apart j N W x) : Beside k N W x (evaluate j x) := by
    by_cases same : j = k
    · subst same
      exact evaluate_beside_of_closed (closed mem)
    · exact evaluate_beside same (apart j same)
  have folded (js : List CraneNo) (x : State) (mem : ∀ j ∈ js, j ∈ ks) (closed : k ∈ ks → releaseCondition x k = false)
      (apart : ∀ j, j ≠ k → Apart j N W x) : Beside k N W x (js.foldl (fun s j => evaluate j s) x) := by
    induction js generalizing x with
    | nil => exact .refl ..
    | cons j js ih =>
      have first := one j x (mem j List.mem_cons_self) closed apart
      exact first.trans (ih _ (fun i later => mem i (List.mem_cons_of_mem _ later))
        (fun mem => first.condition.trans (closed mem)) fun i other => (apart i other).beside first)
  unfold evaluateMany
  split
  · exact .refl ..
  · exact one _ s List.mem_cons_self closed apart
  · have used : Beside k N W s (useFree s) := .of_same rfl rfl rfl rfl rfl rfl rfl fun _ _ h _ => h
    refine used.trans (folded _ _ (fun j mem => ?_) closed fun j other => (apart j other).beside used)
    exact of_decide_eq_true (List.mem_filter.1 mem).2

end

end Sys2Proof.Machine


/-! PROOFS. A record placed or amended, and followed through the lashing tests and evaluations of its order (R9, R10). -/

namespace Sys2Proof.Machine

variable {s t u v w g y : State} {k : CraneNo} {r : MoveRecord} {n : MoveNo}

/-! ### The release unit told of one queue (R14, R28) -/

theorem queue_ne_of_newlyReady {j : CraneNo} (mem : j ∈ newlyReady s t) : t.queues[j] ≠ s.queues[j] := by
  intro same
  obtain ⟨r, here, ready⟩ := List.any_eq_true.1 (List.mem_filter.1 mem).2
  rw [same] at here
  rw [Bool.and_eq_true, decide_eq_true_eq, Bool.not_eq_true', List.any_eq_false] at ready
  exact ready.2 r here (by simp [ready.1])

/-- Where one queue alone has changed and its crane's release condition does not hold, telling the release unit leaves at
most a request withdrawn. -/
theorem tellRelease_of_closed (others : ∀ j, j ≠ k → w.queues[j] = s.queues[j]) (closed : releaseCondition w k = false) :
    ∃ ls, tellRelease s w = { w with lanes := ls } := by
  have only (j : CraneNo) (mem : j ∈ newlyReady s w) : j = k := by
    by_contra other
    exact queue_ne_of_newlyReady mem (others j other)
  have distinct : (newlyReady s w).Nodup := (List.nodup_finRange 8).filter _
  unfold tellRelease
  generalize newlyReady s w = ks at only distinct
  cases ks with
  | nil => exact ⟨w.lanes, rfl⟩
  | cons j ks =>
    cases ks with
    | nil =>
      rw [only j List.mem_cons_self]
      exact ⟨(withoutStale k w).lanes, evaluate_of_closed closed⟩
    | cons i ks =>
      have same : j = i := (only j List.mem_cons_self).trans (only i (List.mem_cons_of_mem _ List.mem_cons_self)).symm
      exact absurd (same ▸ List.mem_cons_self) (List.nodup_cons.1 distinct).1

/-! ### The record followed -/

theorem findIn_of_queue {f : MoveRecord → MoveRecord} (queue : t.queues[k] = (s.queues[k]).map f)
    (number : ∀ r, (f r).number = r.number) (n : MoveNo) : findIn t k n = (findIn s k n).map f := by
  simp only [findIn, queue, List.find?_map, Function.comp_def, number]

/-- Lashing tests from `v` to `y`, by way of `g`, and the evaluation of the cranes with a move made READY by the first of
them: a record of crane `k`, whose release condition does not hold, is followed, and where no area has changed nothing has. -/
theorem followed_through (first : Lashed (deckWork v) v g) (second : Lashed (deckWork v) g y)
    (closed : releaseCondition v k = false) (alone : ∀ j, j ≠ k → n ∉ queueNumbers v j) (found : findIn v k n = some r) :
    queueNumbers (evaluateMany (newlyReady v g) y) k = queueNumbers v k ∧
    ∃ x, findIn (evaluateMany (newlyReady v g) y) k n = some x ∧ Followed v (evaluateMany (newlyReady v g) y) r x ∧
      ((evaluateMany (newlyReady v g) y).areas = v.areas → x = r) := by
  have lashed : Beside k (· = n) (deckWork v) v y := .of_relashed (first.trans second).toRelashed
  have apart (j : CraneNo) (other : j ≠ k) : Apart j (· = n) (deckWork v) y := by
    refine Apart.beside ⟨fun m mem named => alone j other (named ▸ mem), fun a work => ?_⟩ lashed
    unfold deckWork
    rw [work]
    rfl
  have evaluated : Beside k (· = n) (deckWork v) y (evaluateMany (newlyReady v g) y) :=
    evaluateMany_beside (fun _ => lashed.condition.trans closed) apart
  have still (areas : (evaluateMany (newlyReady v g) y).areas = v.areas) : evaluateMany (newlyReady v g) y = v := by
    have rank (a : AreaNo) : areaRank (deckWork v) (evaluateMany (newlyReady v g) y) a = areaRank (deckWork v) v a := by
      unfold areaRank
      rw [areas]
    have same_g : g = v := first.still.resolve_right fun ⟨a, up⟩ =>
      absurd (up.trans_le ((second.climb a).trans (evaluated.climb a))) (rank a ▸ lt_irrefl _)
    have same_y : y = v := (first.trans second).still.resolve_right fun ⟨a, up⟩ =>
      absurd (up.trans_le (evaluated.climb a)) (rank a ▸ lt_irrefl _)
    rw [same_g, same_y, newlyReady_self]
    rfl
  have all := lashed.trans evaluated
  obtain ⟨f, queue, follow⟩ := all.records
  refine ⟨all.numbers, f r, ?_, (follow r).2 (findIn_mem found).2, fun areas => ?_⟩
  · rw [findIn_of_queue queue (fun r => (follow r).1), found]
    rfl
  · have now := findIn_of_queue queue (fun r => (follow r).1) n
    rw [still areas, found] at now
    exact (Option.some.inj now).symm

theorem work_of_gained (mem : r ∈ v.queues[k]) {a : AreaNo} (deck : a ∈ deckAreas v r) : deckWork v a = true := by
  unfold deckWork noDeckWork
  rw [Bool.not_eq_true', List.all_eq_false]
  exact ⟨r, (mem_pool_iff ..).2 ⟨k, mem⟩, by simpa using deck⟩

/-! ### Orders that pass their tests -/

theorem order_done {unit : Route → Telegram → State → Option Answer} {f : State → State} {tele : Telegram}
    (h : AtHead s tele) (free : UplinkFree f)
    (answered : unit (route s tele) tele (popInbound s) = some (accept (f (popInbound s)))) :
    awake (takeHead unit) s = withUplink (answeredUplink s.uplink tele .accepted [] none) (f s) := by
  rw [awake_takeHead h answered (uplinkFree_kept free s)]
  have same : (accept (f (popInbound s))).state = withUplink (takenUplink s.uplink) (f s) := by
    rw [popInbound_withUplink]
    exact free _ s
  rw [same]
  rfl

/-! ### ORDER_ADD (R9) -/

theorem addRecord_uplinkFree (k : CraneNo) (o : AddOrder) : UplinkFree (addRecord k o) := fun u s => by
  unfold addRecord
  dsimp only
  rw [show newRecord (withUplink u s) o = newRecord s o from rfl, show (withUplink u s).queues = s.queues from rfl,
    show setQueue k (placeNew (newRecord s o) o.beforeMove s.queues[k]) (withUplink u s) =
      withUplink u (setQueue k (placeNew (newRecord s o) o.beforeMove s.queues[k]) s) from rfl, tellRelease_uplinkFree]
  generalize tellRelease s (setQueue k (placeNew (newRecord s o) o.beforeMove s.queues[k]) s) = v
  rw [show deckAreas (withUplink u v) (newRecord s o) = deckAreas v (newRecord s o) from rfl, deckPointsGained_uplinkFree,
    queueChanged_uplinkFree]
  exact evaluateMany_uplinkFree _ u _

theorem addRefusal_of_passed {o : AddOrder} (number : o.number ≠ 0) (valid : legsValid s o.kind o.legs = true)
    (before : ∀ b, o.beforeMove = some b → b ∈ queueNumbers s k) (new : o.number ∉ (pool s).map (·.number))
    (room : (pool s).length < 512) (place : (s.queues[k]).length < 96) : addRefusal s k o = none := by
  have fits : ¬AddOutOfRange s k o := by
    rintro (zero | invalid | ⟨b, named, out⟩)
    · exact number zero
    · rw [valid] at invalid
      cases invalid
    · exact out (before b named)
  rw [addRefusal_of_inRange fits, if_neg new, if_neg (by omega)]

/-- The new record before its evaluation. -/
def plannedRecord (s : State) (o : AddOrder) : MoveRecord where
  number := o.number
  kind := o.kind
  legs := o.legs
  afterMove := o.afterMove.filter (inPool s)
  state := .pending
  lane := none
  called := false
  readyTime := none
  activation := none
  progress := none
  holdOverlap := false
  abandoned := false

theorem newRecord_eq (s : State) (o : AddOrder) : newRecord s o =
    { number := o.number, kind := o.kind, legs := o.legs, afterMove := o.afterMove.filter (inPool s)
      state := if eligible s (newRecord s o) then .ready else .pending, lane := none, called := false
      readyTime := if eligible s (newRecord s o) then some s.clock else none
      activation := none, progress := none, holdOverlap := false, abandoned := false } := by
  have elig : eligible s (newRecord s o) = eligible s (plannedRecord s o) := eligible_restated s (evaluateRecord_same ..)
  rw [elig]
  show evaluateRecord s (plannedRecord s o) = _
  unfold evaluateRecord plannedRecord
  split <;> rfl

theorem newRecord_state (s : State) (o : AddOrder) :
    (newRecord s o).state = if eligible s (newRecord s o) then .ready else .pending :=
  congrArg MoveRecord.state (newRecord_eq s o)

theorem newRecord_readyTime (s : State) (o : AddOrder) :
    (newRecord s o).readyTime = if eligible s (newRecord s o) then some s.clock else none :=
  congrArg MoveRecord.readyTime (newRecord_eq s o)

/-! The places of R9. -/

section
variable {q : List MoveRecord} {b : MoveNo} {x : MoveRecord}

theorem placeNew_of_idle (idle : x.busy = false)
    (unique : ∀ y ∈ q, y.number = b → y = x) : placeNew r (some b) q = placeBefore r b q := by
  refine if_neg fun busy => ?_
  obtain ⟨y, mem, both⟩ := List.any_eq_true.1 busy
  rw [Bool.and_eq_true, decide_eq_true_eq] at both
  rw [unique y mem both.1, idle] at both
  cases both.2

theorem placeNew_of_busy (found : q.find? (fun y => decide (y.number = b)) = some x) (busy : x.busy = true) :
    placeNew r (some b) q = placeBehindBusy r q := by
  refine if_pos (List.any_eq_true.2 ⟨x, List.mem_of_find?_eq_some found, ?_⟩)
  rw [busy, Bool.and_true]
  simpa using List.find?_some found

theorem placeNew_perm_cons (r : MoveRecord) (before : Option MoveNo) (q : List MoveRecord) :
    (placeNew r before q).Perm (r :: q) := by
  unfold placeNew
  split
  · exact List.perm_append_singleton r q
  · split
    · exact placeBehindBusy_perm ..
    · exact placeBefore_perm ..

end

/-- The only record of its number is found. -/
theorem findIn_of_unique (mem : r ∈ s.queues[k]) (unique : ∀ x ∈ s.queues[k], x.number = r.number → x = r) :
    findIn s k r.number = some r := by
  cases find : findIn s k r.number with
  | none => exact absurd (decide_eq_true rfl) (List.find?_eq_none.1 find r mem)
  | some x =>
    obtain ⟨here, same⟩ := findIn_mem find
    rw [unique x here same]

/-- The state with the new record placed. -/
def added (k : CraneNo) (o : AddOrder) (s : State) : State :=
  setQueue k (placeNew (newRecord s o) o.beforeMove s.queues[k]) s

section
variable {o : AddOrder}

theorem mem_added (x : MoveRecord) : x ∈ (added k o s).queues[k] ↔ x = newRecord s o ∨ x ∈ s.queues[k] := by
  unfold added
  rw [setQueue_get, if_pos rfl, (placeNew_perm_cons ..).mem_iff, List.mem_cons]

theorem findIn_added (new : o.number ∉ (pool s).map (·.number)) :
    findIn (added k o s) k o.number = some (newRecord s o) := by
  have number : (newRecord s o).number = o.number := by rw [newRecord_eq]
  rw [← number]
  refine findIn_of_unique ((mem_added _).2 (.inl rfl)) fun x mem same => ?_
  rcases (mem_added x).1 mem with here | old
  · exact here
  · exact absurd (List.mem_map.2 ⟨x, (mem_pool_iff ..).2 ⟨k, old⟩, same.trans number⟩) new

theorem added_alone (new : o.number ∉ (pool s).map (·.number)) {j : CraneNo} (other : j ≠ k) :
    o.number ∉ queueNumbers (added k o s) j := by
  unfold queueNumbers added
  rw [setQueue_get, if_neg other]
  intro mem
  obtain ⟨x, old, same⟩ := List.mem_map.1 mem
  exact new (List.mem_map.2 ⟨x, (mem_pool_iff ..).2 ⟨j, old⟩, same⟩)

/-- What an accepted ORDER_ADD makes of the record it has placed. -/
theorem addRecord_of_closed (new : o.number ∉ (pool s).map (·.number)) (closed : releaseCondition s k = false) :
    queueNumbers (addRecord k o s) k = queueNumbers (added k o s) k ∧
    ∃ x, findIn (addRecord k o s) k o.number = some x ∧ Followed s (addRecord k o s) (newRecord s o) x ∧
      ((addRecord k o s).areas = s.areas → x = newRecord s o) := by
  obtain ⟨ls, told⟩ := tellRelease_of_closed (s := s) (w := added k o s) (k := k)
    (fun j other => (setQueue_get ..).trans (if_neg other)) closed
  have eq : addRecord k o s = evaluateMany
      (newlyReady (tellRelease s (added k o s))
        (deckPointsGained (deckAreas (tellRelease s (added k o s)) (newRecord s o)) (tellRelease s (added k o s))))
      (queueChanged k
        (deckPointsGained (deckAreas (tellRelease s (added k o s)) (newRecord s o)) (tellRelease s (added k o s)))) := rfl
  rw [eq, told]
  generalize started : { added k o s with lanes := ls } = v
  have queues : v.queues = (added k o s).queues := by rw [← started]
  have same_areas : v.areas = s.areas := by rw [← started]; rfl
  have same_bays : v.bays = s.bays := by rw [← started]; rfl
  have same_clock : v.clock = s.clock := by rw [← started]; rfl
  have first : Lashed (deckWork v) v (deckPointsGained (deckAreas v (newRecord s o)) v) :=
    deckPointsGained_lashed (worked_deckWork v) fun a deck => work_of_gained (by
      rw [queues]
      exact (mem_added _).2 (.inl rfl)) deck
  have second := queueChanged_lashed ((worked_deckWork v).relashed first.toRelashed) k
  have shut : releaseCondition v k = false := by
    rw [← started]
    exact closed
  obtain ⟨numbers, x, found, follow, still⟩ := followed_through (n := o.number) (r := newRecord s o) first second shut
    (fun j other => by
      unfold queueNumbers
      rw [queues]
      exact added_alone new other)
    (by
      unfold findIn
      rw [queues]
      exact findIn_added new)
  refine ⟨numbers.trans (by unfold queueNumbers; rw [queues]), x, found, ?_, fun areas => still (areas.trans same_areas.symm)⟩
  exact (followed_self (.inr (eligible_congr same_areas same_bays _))).trans same_clock follow

theorem addRecord_quiet (k : CraneNo) (o : AddOrder) (s : State) : QReach (added k o s) (addRecord k o s) :=
  .trans (tellRelease_quiet ..) (.trans (deckPointsGained_quiet ..) (.trans (queueChanged_quiet ..) (evaluateMany_quiet ..)))

end

/-- Settles O31: the record placed, told of, and followed through the order's lashing tests and evaluations. -/
theorem orderAddAccepted : Obligations.OrderAddAccepted := by
  intro s t k o ready present read number valid before new room place r q v w u
  have taken : exec .orderAdd s = .next (withUplink (answeredUplink s.uplink t .accepted [] none) (addRecord k o s)) := by
    refine congrArg Host.Outcome.next (order_done ready.toAtHead (addRecord_uplinkFree k o) ?_)
    rw [route_add ready]
    have passed := addRefusal_of_passed (s := popInbound s) (k := k) number valid before new room place
    exact congrArg some (takeAdd_of_passed (s := popInbound s) present read passed)
  refine ⟨taken, newRecord_eq s o, fun tail => ?_, fun b x named found idle unique => ?_, fun b x named found busy => ?_,
    (QReach.workFrame (addRecord_quiet k o s)).withUplink _, fun closed => ?_⟩
  · show placeNew r o.beforeMove _ = _
    rw [tail]
    rfl
  · show placeNew r o.beforeMove _ = _
    rw [named, placeNew_of_idle idle unique]
    rfl
  · show placeNew r o.beforeMove _ = _
    rw [named, placeNew_of_busy found busy]
    rfl
  · obtain ⟨numbers, x, found, follow, still⟩ := addRecord_of_closed new closed
    have settled : x.state = if eligible (addRecord k o s) x then .ready else .pending :=
      follow.settled (newRecord_state s o)
    have made_u : u = withUplink (answeredUplink s.uplink t .accepted [] none) (addRecord k o s) := rfl
    rw [made_u]
    generalize addRecord k o s = z at numbers found follow still settled
    refine ⟨?_, x, found, follow.same, settled, fun made => ?_, ?_, still⟩
    · refine numbers.trans ?_
      unfold queueNumbers added
      rw [setQueue_get, if_pos rfl]
    · by_cases first : (newRecord s o).state = .ready
      · rcases follow.time with same | taken
        · rw [same, newRecord_readyTime]
          rw [newRecord_state] at first
          split at first
          · next elig => rw [if_pos elig]
          · cases first
        · exact taken
      · exact follow.fresh first (made.resolve_left first)
    · rcases follow.time with same | taken
      · rw [same, newRecord_readyTime]
        split
        · exact .inr rfl
        · exact .inl rfl
      · exact .inr taken

end Sys2Proof.Machine


/-! PROOFS. ORDER_AMEND and ORDER_CANCEL (R10, R11). -/

namespace Sys2Proof.Machine

variable {s t u v w g y : State} {k : CraneNo} {r : MoveRecord} {n : MoveNo} {tele : Telegram}

/-! ### Refusals -/

theorem amend_refused {x : Result} (h : ToCrane s tele k Config.kOrderAmend)
    (refused : takeAmend k tele.body (popInbound s) = refuse x (popInbound s)) :
    exec .orderAmend s = .next (answeredOnly s tele x) := by
  refine congrArg Host.Outcome.next (awake_takeHead_refused h.toAtHead ?_)
  rw [route_amend h]
  exact congrArg some refused

theorem cancel_refused {x : Result} (h : ToCrane s tele k Config.kOrderCancel)
    (refused : takeCancel k tele.body (popInbound s) = refuse x (popInbound s)) :
    exec .orderCancel s = .next (answeredOnly s tele x) := by
  refine congrArg Host.Outcome.next (awake_takeHead_refused h.toAtHead ?_)
  rw [route_cancel h]
  exact congrArg some refused

section
variable {n1 n0 : Byte} {rest : List Byte}

theorem takeAmend_of_short {body : List Byte} (short : body.length < 2) : takeAmend k body s = refuse .range s := by
  match body with
  | [] => rfl
  | [_] => rfl
  | _ :: _ :: _ =>
    rw [List.length_cons, List.length_cons] at short
    omega

theorem takeAmend_of_absent (absent : findIn s k (moveOf n1 n0) = none) :
    takeAmend k (n1 :: n0 :: rest) s = refuse .unknown s := by
  unfold takeAmend
  dsimp only
  rw [absent]

theorem takeAmend_of_busy (found : findIn s k (moveOf n1 n0) = some r) (busy : r.busy = true) :
    takeAmend k (n1 :: n0 :: rest) s = refuse .collision s := by
  unfold takeAmend
  dsimp only
  rw [found]
  exact if_pos busy

theorem takeAmend_of_unfit (found : findIn s k (moveOf n1 n0) = some r) (idle : r.busy = false)
    (unfit : amendedLegs s r (n1 :: n0 :: rest) = none) : takeAmend k (n1 :: n0 :: rest) s = refuse .range s := by
  unfold takeAmend
  dsimp only
  rw [found]
  dsimp only
  rw [if_neg (by rw [idle]; decide), unfit]

theorem takeAmend_of_fit {legs : List Leg} (found : findIn s k (moveOf n1 n0) = some r) (idle : r.busy = false)
    (fit : amendedLegs s r (n1 :: n0 :: rest) = some legs) :
    takeAmend k (n1 :: n0 :: rest) s = accept (amendRecord k r legs s) := by
  unfold takeAmend
  dsimp only
  rw [found]
  dsimp only
  rw [if_neg (by rw [idle]; decide), fit]

theorem amendedLegs_of_read {body : List Byte} {o : AmendOrder} (read : readAmend body = some o) :
    amendedLegs s r body = if o.kind = r.kind ∧ legsValid s r.kind o.legs then some o.legs else none := by
  unfold amendedLegs
  rw [read]

end

/-! ### An amendment accepted -/

/-- The record with its new legs, evaluated. -/
def amendedRecord (s : State) (r : MoveRecord) (legs : List Leg) : MoveRecord := evaluateRecord s { r with legs := legs }

/-- The state with the record so written. -/
def amended (r : MoveRecord) (legs : List Leg) (s : State) : State := modMove r.number (fun _ => amendedRecord s r legs) s

/-- The lashing tests and evaluations that follow, from the state `t` in which the release unit has been told. -/
def amendFollowed (k : CraneNo) (r r' : MoveRecord) (t : State) : State :=
  evaluateMany (newlyReady t (deckPointsGained ((deckAreas t r').filter fun a => decide (a ∉ deckAreas t r)) t))
    (queueChanged k (deckPointsLost ((deckAreas t r).filter fun a => decide (a ∉ deckAreas t r'))
      (deckPointsGained ((deckAreas t r').filter fun a => decide (a ∉ deckAreas t r)) t)))

theorem amendRecord_eq (k : CraneNo) (r : MoveRecord) (legs : List Leg) (s : State) : amendRecord k r legs s =
    amendFollowed k r (amendedRecord s r legs) (tellRelease s (amended r legs s)) := rfl

theorem amendFollowed_uplinkFree (k : CraneNo) (r r' : MoveRecord) : UplinkFree (amendFollowed k r r') := fun u t => by
  unfold amendFollowed
  rw [show deckAreas (withUplink u t) = deckAreas t from rfl, deckPointsGained_uplinkFree, deckPointsLost_uplinkFree,
    queueChanged_uplinkFree]
  exact evaluateMany_uplinkFree _ u _

theorem amendRecord_uplinkFree (k : CraneNo) (r : MoveRecord) (legs : List Leg) : UplinkFree (amendRecord k r legs) :=
  fun u s => by
    rw [amendRecord_eq, show amendedRecord (withUplink u s) r legs = amendedRecord s r legs from rfl,
      show amended r legs (withUplink u s) = withUplink u (amended r legs s) from rfl, tellRelease_uplinkFree,
      amendFollowed_uplinkFree, amendRecord_eq]

theorem amendFollowed_quiet (k : CraneNo) (r r' : MoveRecord) (t : State) : QReach t (amendFollowed k r r' t) :=
  .trans (deckPointsGained_quiet ..) (.trans (deckPointsLost_quiet ..)
    (.trans (queueChanged_quiet ..) (evaluateMany_quiet ..)))

theorem amendRecord_quiet (k : CraneNo) (r : MoveRecord) (legs : List Leg) (s : State) :
    QReach (amended r legs s) (amendRecord k r legs s) := by
  rw [amendRecord_eq]
  exact .trans (tellRelease_quiet ..) (amendFollowed_quiet ..)

theorem amendedRecord_same (s : State) (r : MoveRecord) (legs : List Leg) : amendedRecord s r legs = { r with
    legs := legs, state := (amendedRecord s r legs).state, readyTime := (amendedRecord s r legs).readyTime } :=
  evaluateRecord_same s { r with legs := legs }

theorem amendedRecord_number (s : State) (r : MoveRecord) (legs : List Leg) :
    (amendedRecord s r legs).number = r.number := by rw [amendedRecord_same]

theorem amendedRecord_settled (s : State) (r : MoveRecord) (legs : List Leg) : Settled s (amendedRecord s r legs) := by
  unfold Settled amendedRecord
  rw [eligible_restated s (evaluateRecord_same s { r with legs := legs })]
  exact evaluateRecord_state ..

theorem amended_queues (legs : List Leg) (j : CraneNo) : (amended r legs s).queues[j] =
    (s.queues[j]).map fun x => if x.number = r.number then amendedRecord s r legs else x := mapMoves_get ..

theorem amended_numbers (legs : List Leg) (j : CraneNo) : queueNumbers (amended r legs s) j = queueNumbers s j := by
  refine queueNumbers_map (amended_queues legs j) fun x => ?_
  split
  · next same => rw [amendedRecord_number, same]
  · rfl

section
variable (distinct : ((pool s).map (·.number)).Nodup) (mem : r ∈ s.queues[k])
include distinct mem

theorem not_mem_other_queue {j : CraneNo} (other : j ≠ k) : r.number ∉ queueNumbers s j := fun here => by
  obtain ⟨x, held, same⟩ := List.mem_map.1 here
  exact other (pool_unique distinct mem held same).1

theorem amended_other (legs : List Leg) {j : CraneNo} (other : j ≠ k) : (amended r legs s).queues[j] = s.queues[j] := by
  rw [amended_queues]
  refine (List.map_congr_left fun x held => if_neg fun same => ?_).trans (List.map_id' _)
  exact other (pool_unique distinct mem held same).1

omit distinct in
theorem mem_amended (legs : List Leg) : amendedRecord s r legs ∈ (amended r legs s).queues[k] := by
  rw [amended_queues]
  exact List.mem_map.2 ⟨r, mem, if_pos rfl⟩

theorem findIn_amended (legs : List Leg) : findIn (amended r legs s) k r.number = some (amendedRecord s r legs) := by
  have number (x : MoveRecord) : (if x.number = r.number then amendedRecord s r legs else x).number = x.number := by
    split
    · next same => rw [amendedRecord_number, same]
    · rfl
  rw [findIn_of_queue (amended_queues legs k) number, findIn_of_mem distinct mem]
  exact congrArg some (if_pos rfl)

/-- What an accepted ORDER_AMEND makes of the record. -/
theorem amendRecord_of_closed (legs : List Leg) (closed : releaseCondition s k = false) :
    queueNumbers (amendRecord k r legs s) k = queueNumbers s k ∧
    ∃ x, findIn (amendRecord k r legs s) k r.number = some x ∧
      Followed s (amendRecord k r legs s) (amendedRecord s r legs) x ∧
      ((amendRecord k r legs s).areas = s.areas → x = amendedRecord s r legs) := by
  obtain ⟨ls, told⟩ := tellRelease_of_closed (s := s) (w := amended r legs s) (k := k)
    (fun j other => amended_other distinct mem legs other) closed
  rw [amendRecord_eq, told]
  generalize started : { amended r legs s with lanes := ls } = v
  have queues : v.queues = (amended r legs s).queues := by rw [← started]
  have same_areas : v.areas = s.areas := by rw [← started]; rfl
  have same_bays : v.bays = s.bays := by rw [← started]; rfl
  have same_clock : v.clock = s.clock := by rw [← started]; rfl
  have here : amendedRecord s r legs ∈ v.queues[k] := by
    rw [queues]
    exact mem_amended mem legs
  have first : Lashed (deckWork v) v (deckPointsGained
      ((deckAreas v (amendedRecord s r legs)).filter fun a => decide (a ∉ deckAreas v r)) v) :=
    deckPointsGained_lashed (worked_deckWork v) fun a deck => work_of_gained here (List.mem_of_mem_filter deck)
  have lost := deckPointsLost_lashed ((worked_deckWork v).relashed first.toRelashed)
    ((deckAreas v r).filter fun a => decide (a ∉ deckAreas v (amendedRecord s r legs)))
  have second := lost.trans (queueChanged_lashed (((worked_deckWork v).relashed first.toRelashed).relashed lost.toRelashed) k)
  have shut : releaseCondition v k = false := by
    rw [← started]
    exact closed
  have numbers_v (j : CraneNo) : queueNumbers v j = queueNumbers s j := by
    unfold queueNumbers
    rw [queues]
    exact amended_numbers legs j
  obtain ⟨numbers, x, found, follow, still⟩ := followed_through (n := r.number) (r := amendedRecord s r legs) first second
    shut
    (fun j other => by
      rw [numbers_v]
      exact not_mem_other_queue distinct mem other)
    (by
      unfold findIn
      rw [queues]
      exact findIn_amended distinct mem legs)
  refine ⟨numbers.trans (numbers_v k), x, found, ?_, fun areas => still (areas.trans same_areas.symm)⟩
  exact (followed_self (.inr (eligible_congr same_areas same_bays _))).trans same_clock follow

end

theorem amendedRecord_fresh (legs : List Leg) (unready : r.state ≠ .ready) (ready : (amendedRecord s r legs).state = .ready) :
    (amendedRecord s r legs).readyTime = some s.clock := by
  have elig : eligible s { r with legs := legs } = true := by
    by_contra out
    unfold amendedRecord at ready
    rw [evaluateRecord_state, if_neg out] at ready
    cases ready
  unfold amendedRecord
  rw [evaluateRecord_of_eligible elig]
  exact if_neg unready

/-- Whether the record was READY or not, its ready time is one it had or the quay clock, and the clock where it has become
READY (R13). -/
theorem amended_readyTime {legs : List Leg} {x : MoveRecord} (follow : Followed s t (amendedRecord s r legs) x) :
    (r.state ≠ .ready → x.state = .ready → x.readyTime = some s.clock) ∧
    (x.readyTime = r.readyTime ∨ x.readyTime = some s.clock) := by
  refine ⟨fun unready ready => ?_, ?_⟩
  · by_cases first : (amendedRecord s r legs).state = .ready
    · rcases follow.time with same | taken
      · exact same.trans (amendedRecord_fresh legs unready first)
      · exact taken
    · exact follow.fresh first ready
  · rcases follow.time with same | taken
    · rw [same]
      exact evaluateRecord_time { r with legs := legs }
    · exact .inr taken

theorem amend_done {n1 n0 : Byte} {rest : List Byte} {legs : List Leg} (h : ToCrane s tele k Config.kOrderAmend)
    (body : tele.body = n1 :: n0 :: rest) (found : findIn s k (moveOf n1 n0) = some r) (idle : r.busy = false)
    (fit : amendedLegs s r tele.body = some legs) : exec .orderAmend s =
      .next (withUplink (answeredUplink s.uplink tele .accepted [] none) (amendRecord k r legs s)) := by
  refine congrArg Host.Outcome.next (order_done h.toAtHead (amendRecord_uplinkFree k r legs) ?_)
  rw [route_amend h]
  refine congrArg some ((congrArg (fun b => takeAmend k b (popInbound s)) body).trans ?_)
  exact takeAmend_of_fit ((findIn_popInbound ..).trans found) idle (body ▸ fit)

/-! ### A cancellation -/

theorem takeCancel_of_unread {body : List Byte} (length : body.length ≠ 2) : takeCancel k body s = refuse .range s := by
  match body with
  | [] => rfl
  | [_] => rfl
  | [_, _] => exact absurd rfl length
  | _ :: _ :: _ :: _ => rfl

theorem takeCancel_of_absent {n1 n0 : Byte} (absent : findIn s k (moveOf n1 n0) = none) :
    takeCancel k [n1, n0] s = refuse .unknown s := by
  unfold takeCancel readCancel
  dsimp only
  rw [absent]

theorem takeCancel_of_found {n1 n0 : Byte} (found : findIn s k (moveOf n1 n0) = some r) : takeCancel k [n1, n0] s =
    if r.state = .active then refuse .collision s else accept (voidAndFollow k r .voidedCancel s) := by
  unfold takeCancel readCancel
  dsimp only
  rw [found]

theorem cancel_done {n1 n0 : Byte} (h : ToCrane s tele k Config.kOrderCancel) (body : tele.body = [n1, n0])
    (found : findIn s k (moveOf n1 n0) = some r) (inactive : r.state ≠ .active) : exec .orderCancel s =
      .next (withUplink (answeredUplink s.uplink tele .accepted [] none) (voidAndFollow k r .voidedCancel s)) := by
  refine congrArg Host.Outcome.next (order_done h.toAtHead (voidAndFollow_uplinkFree k r .voidedCancel) ?_)
  rw [route_cancel h]
  refine congrArg some ((congrArg (fun b => takeCancel k b (popInbound s)) body).trans ?_)
  rw [takeCancel_of_found ((findIn_popInbound ..).trans found)]
  exact if_neg inactive

theorem orderCancel_taken (h : ToCrane s tele k Config.kOrderCancel) {n1 n0 : Byte} (body : tele.body = [n1, n0]) :
    (findIn s k (moveOf n1 n0) = none → exec .orderCancel s = .next (answeredOnly s tele .unknown)) ∧
    ∀ r, findIn s k (moveOf n1 n0) = some r →
      (r.state = .active → exec .orderCancel s = .next (answeredOnly s tele .collision)) := by
  refine ⟨fun absent => cancel_refused h ?_, fun r found active => cancel_refused h ?_⟩
  · rw [body]
    exact takeCancel_of_absent ((findIn_popInbound ..).trans absent)
  · rw [body, takeCancel_of_found ((findIn_popInbound ..).trans found)]
    exact if_pos active

/-- Settles O32: the tests in their sequence; the amended record told of and followed; a cancellation as a voiding. -/
theorem ordersAmendAndCancel : Obligations.OrdersAmendAndCancel := by
  refine ⟨fun s t k h => ⟨fun short => amend_refused h (takeAmend_of_short short), fun n1 n0 rest body =>
    ⟨fun absent => amend_refused h ?_, fun r found => ⟨fun busy => amend_refused h ?_, fun idle unread => amend_refused h ?_,
      fun o idle read unfit => amend_refused h ?_, fun o idle read kind valid => ?_⟩⟩⟩,
    fun s t k h => ⟨fun length => cancel_refused h (takeCancel_of_unread length), fun n1 n0 body =>
      ⟨(orderCancel_taken h body).1, fun r found => ⟨(orderCancel_taken h body).2 r found, fun inactive => ?_⟩⟩⟩⟩
  case refine_1 =>
    rw [body]
    exact takeAmend_of_absent ((findIn_popInbound ..).trans absent)
  case refine_2 =>
    rw [body]
    exact takeAmend_of_busy ((findIn_popInbound ..).trans found) busy
  case refine_3 =>
    rw [body]
    refine takeAmend_of_unfit ((findIn_popInbound ..).trans found) idle ?_
    unfold amendedLegs
    rw [← body, unread]
  case refine_4 =>
    rw [body]
    refine takeAmend_of_unfit ((findIn_popInbound ..).trans found) idle ?_
    rw [← body, amendedLegs_of_read read, popInbound_eq]
    refine if_neg fun ⟨same, valid⟩ => ?_
    rcases unfit with other | invalid
    · exact other same
    · exact Bool.false_ne_true (invalid.symm.trans valid)
  case refine_5 =>
    intro r' w v before after lost gained g u
    have taken := amend_done h body found idle ((amendedLegs_of_read read).trans (if_pos ⟨kind, valid⟩))
    refine ⟨taken, (QReach.workFrame (amendRecord_quiet k r o.legs s)).withUplink _, amendedRecord_same s r o.legs,
      evaluateRecord_state .., fun closed distinct => ?_⟩
    obtain ⟨numbers, x, found, follow, still⟩ := amendRecord_of_closed distinct (findIn_mem found).1 o.legs closed
    have made_u : u = withUplink (answeredUplink s.uplink t .accepted [] none) (amendRecord k r o.legs s) := rfl
    rw [made_u]
    have settled := follow.settled (amendedRecord_settled s r o.legs)
    obtain ⟨fresh, time⟩ := amended_readyTime follow
    have same := restated_trans (r := { r with legs := o.legs }) (amendedRecord_same s r o.legs) follow.same
    generalize amendRecord k r o.legs s = z at numbers found follow still settled
    exact ⟨numbers, x, found, same, settled, fresh, time, still⟩
  case refine_6 =>
    intro v up u
    have taken := cancel_done h body found inactive
    rw [voidAndFollow_eq] at taken
    refine ⟨taken, ?_, fun unstaged alone => ?_⟩
    · have frame := (voidAndFollow_workFrame k r .voidedCancel s).withUplink up
      rw [voidAndFollow_eq] at frame
      exact frame
    · show withUplink up (afterVoiding k r s v) = withUplink up v
      rw [afterVoiding_of_alone unstaged alone]

end Sys2Proof.Machine


/-! PROOFS. A crane taken out of service, and its ACTIVE move abandoned (R19, R126, R127). -/

namespace Sys2Proof.Machine

variable {s t u : State} {k : CraneNo} {n : MoveNo} {r : MoveRecord} {l : LaneNo}

theorem signal_congr {x y : Lane} (use : x.use = y.use) (slot : x.slot = y.slot) : x.signal = y.signal := by
  unfold Lane.signal
  rw [use, slot]

theorem releasedSlot_move (x : Slot) : (releasedSlot x).move = none := by cases x <;> rfl

theorem filter_request_twice (p q : Request → Bool) (x : Option Request) :
    (x.filter p).filter q = x.filter fun y => p y && q y := by
  cases x with
  | none => rfl
  | some y =>
    cases hp : p y <;> simp [Option.filter, hp]

/-! ### Steps 1 to 3 of R126 -/

/-- Crane `k` WITHDRAWN and the berth state tested. -/
def outOfService (k : CraneNo) (s : State) : State := testBerth (some k) (modCrane k (fun c => { c with mode := .withdrawn }) s)

theorem outOfService_eq (k : CraneNo) (s : State) : outOfService k s = { s with
    cranes := s.cranes.set k { s.cranes[k] with mode := .withdrawn }
    berth := { s.berth with
      state := if s.berth.state = .running then .running else holdState (outOfService k s) }
    reports := (offered (berthReport k s (outOfService k s)) s).reports } :=
  testBerth_from k rfl rfl rfl rfl

theorem withdrawCrane_slots (k : CraneNo) (s : State) : withdrawCrane k s =
    withdrawRequests (fun q => decide (q.crane = k))
      (slotsFreed .withdrawn (slotFreed (notActiveOf k) s) lanes (outOfService k s)) := by
  have kept : slotFreed (notActiveOf k) (outOfService k s) = slotFreed (notActiveOf k) s := by
    rw [outOfService_eq]
    rfl
  rw [← kept]
  exact congrArg (withdrawRequests _) (releaseSlots_eq (p := notActiveOf k) (fun _ _ _ => rfl) _)

theorem withdrawCrane_lanes (l : LaneNo) : (withdrawCrane k s).lanes[l] = { s.lanes[l] with
    slot := if slotFreed (notActiveOf k) s l then releasedSlot (s.lanes[l]).slot else (s.lanes[l]).slot
    request := (s.lanes[l]).request.filter fun q => decide (q.crane ≠ k) } := by
  have same : (outOfService k s).lanes = s.lanes := by rw [outOfService_eq]
  rw [withdrawCrane_slots, withdrawRequests, mapLanes_get, slotsFreed_lanes lanes_nodup, same]
  simp only [ne_eq, decide_not]
  by_cases yes : slotFreed (notActiveOf k) s l = true
  · rw [if_pos ⟨List.mem_finRange l, yes⟩, if_pos yes]
    rfl
  · rw [if_neg fun h => yes h.2, if_neg yes]

theorem withdrawCrane_queues (j : CraneNo) : (withdrawCrane k s).queues[j] = (s.queues[j]).map fun r =>
    if namedBy s (slotFreed (notActiveOf k) s) lanes r then { r with lane := none, called := false } else r := by
  have lanes_same : (outOfService k s).lanes = s.lanes := by rw [outOfService_eq]
  have queues_same : (outOfService k s).queues = s.queues := by rw [outOfService_eq]
  rw [withdrawCrane_slots]
  show (slotsFreed .withdrawn (slotFreed (notActiveOf k) s) lanes (outOfService k s)).queues[j] = _
  rw [slotsFreed_queues lanes_nodup, queues_same]
  unfold namedBy
  rw [lanes_same]

theorem withdrawCrane_gateMarks (u : GateNo) : (withdrawCrane k s).gateMarks[u] = (s.gateMarks[u] ||
    lanes.any fun l => decide (gateOf l = u ∧ ((withdrawCrane k s).lanes[l]).signal ≠ (s.lanes[l]).signal)) := by
  have lanes_same : (outOfService k s).lanes = s.lanes := by rw [outOfService_eq]
  have marks_same : (outOfService k s).gateMarks = s.gateMarks := by rw [outOfService_eq]
  have written : (withdrawCrane k s).gateMarks[u] =
      (slotsFreed .withdrawn (slotFreed (notActiveOf k) s) lanes (outOfService k s)).gateMarks[u] := by
    rw [withdrawCrane_slots]
    rfl
  rw [written, slotsFreed_gateMarks lanes_nodup, lanes_same, marks_same]
  refine congrArg (fun p => s.gateMarks[u] || lanes.any p) (funext fun l => ?_)
  have written := withdrawCrane_lanes (k := k) (s := s) l
  cases freed : slotFreed (notActiveOf k) s l with
  | true =>
    rw [freed, if_pos rfl] at written
    have same : ((withdrawCrane k s).lanes[l]).signal = (laneFreed s.lanes[l]).signal := by
      rw [written]
      exact signal_congr rfl rfl
    rw [same, Bool.true_and]
  | false =>
    rw [freed, if_neg Bool.false_ne_true] at written
    have same : ((withdrawCrane k s).lanes[l]).signal = (s.lanes[l]).signal := by
      rw [written]
      exact signal_congr rfl rfl
    rw [same, Bool.false_and, decide_eq_false fun h => h.2 rfl]

theorem withdrawCrane_state (k : CraneNo) (s : State) : withdrawCrane k s = { s with
    cranes := s.cranes.set k { s.cranes[k] with mode := .withdrawn }
    lanes := (withdrawCrane k s).lanes, queues := (withdrawCrane k s).queues
    gateMarks := (withdrawCrane k s).gateMarks, berth := (outOfService k s).berth
    reports := (withdrawCrane k s).reports } := by
  have freed : withdrawCrane k s = { outOfService k s with
      lanes := (withdrawCrane k s).lanes, queues := (withdrawCrane k s).queues
      gateMarks := (withdrawCrane k s).gateMarks, reports := (withdrawCrane k s).reports } := by
    rw [withdrawCrane_slots]
    conv_lhs => rw [slotsFreed_state]
    rfl
  generalize withdrawCrane k s = t at freed ⊢
  refine freed.trans ?_
  rw [outOfService_eq]

theorem holdState_congr (cranes : t.cranes = s.cranes) (stations : t.stations = s.stations) : holdState t = holdState s := by
  unfold holdState qualifying stationState
  rw [cranes, stations]

theorem withdrawCrane_berth (k : CraneNo) (s : State) : (withdrawCrane k s).berth = { s.berth with
    state := if s.berth.state = .running then .running else holdState (withdrawCrane k s) } := by
  have hold : holdState (withdrawCrane k s) = holdState (outOfService k s) := by
    refine holdState_congr ?_ ?_
    · rw [withdrawCrane_state, outOfService_eq]
    · rw [withdrawCrane_state, outOfService_eq]
  rw [hold, show (withdrawCrane k s).berth = (outOfService k s).berth by rw [withdrawCrane_state]]
  conv_lhs => rw [outOfService_eq]

theorem withdrawCrane_reports (k : CraneNo) (s : State) : (withdrawCrane k s).reports =
    (offered (berthReport k s (withdrawCrane k s) ++
      lanes.flatMap fun l => if slotFreed (notActiveOf k) s l then cancelReport l .withdrawn (s.lanes[l]).slot else [])
      s).reports := by
  have told : berthReport k s (withdrawCrane k s) = berthReport k s (outOfService k s) := by
    unfold berthReport
    rw [show (withdrawCrane k s).berth = (outOfService k s).berth by rw [withdrawCrane_state]]
  have lanes_same : (outOfService k s).lanes = s.lanes := by rw [outOfService_eq]
  rw [told, offered_append]
  conv_lhs => rw [withdrawCrane_slots]
  show (slotsFreed .withdrawn (slotFreed (notActiveOf k) s) lanes (outOfService k s)).reports = _
  rw [slotsFreed_reports lanes_nodup, lanes_same]
  refine offered_reports_congr _ ?_ ?_ ?_
  · conv_lhs => rw [outOfService_eq]
  · rw [offered_state, show (outOfService k s).clock = s.clock by rw [outOfService_eq]]
  · rw [offered_state, show (outOfService k s).params = s.params by rw [outOfService_eq]]

/-! ### A WITHDRAW of a crane with no ACTIVE move -/

/-- A move of crane `k` that is not ACTIVE, or is the one named. -/
def leaving (k : CraneNo) (active : Option MoveNo) (j : CraneNo) (r : MoveRecord) : Bool :=
  decide (j = k ∧ (r.state ≠ .active ∨ active = some r.number))

theorem freedByWithdraw_eq (s : State) (k : CraneNo) (l : LaneNo) :
    freedByWithdraw s k l = slotFreed (leaving k (s.cranes[k]).active) s l := by
  unfold freedByWithdraw slotFreed
  cases (s.lanes[l]).slot.move.bind (findMove s) with
  | none => rfl
  | some y => rfl

theorem leaving_none (k : CraneNo) : leaving k none = notActiveOf k := by
  funext j r
  simp [leaving, notActiveOf]

theorem freedByWithdraw_of_none (inactive : (s.cranes[k]).active = none) (l : LaneNo) :
    freedByWithdraw s k l = slotFreed (notActiveOf k) s l := by
  rw [freedByWithdraw_eq, inactive, leaving_none]

theorem freeHold_number (b : Bool) (r : MoveRecord) :
    (if b then { r with lane := none, called := false } else r).number = r.number := by split <;> rfl

theorem withdrawCrane_numbers (j : CraneNo) : queueNumbers (withdrawCrane k s) j = queueNumbers s j :=
  queueNumbers_map (withdrawCrane_queues j) fun r => freeHold_number _ r

/-- A record of the pool afterwards was one before, its hold cleared where a slot so released names it. -/
theorem mem_withdrawCrane (mem : r ∈ pool (withdrawCrane k s)) : ∃ r0 ∈ pool s,
    r = if namedBy s (slotFreed (notActiveOf k) s) lanes r0 then { r0 with lane := none, called := false } else r0 := by
  obtain ⟨j, mem⟩ := (mem_pool_iff ..).1 mem
  rw [withdrawCrane_queues] at mem
  obtain ⟨r0, old, rfl⟩ := List.mem_map.1 mem
  exact ⟨r0, (mem_pool_iff ..).2 ⟨j, old⟩, rfl⟩

theorem namedBy_of_slot {freed : LaneNo → Bool} (named : (s.lanes[l]).slot.move = some r.number) (yes : freed l = true) :
    namedBy s freed lanes r = true :=
  List.any_eq_true.2 ⟨l, List.mem_finRange l, by rw [yes, decide_eq_true named]; rfl⟩

theorem withdrawCrane_cleared (named : (s.lanes[l]).slot.move = some n) (freed : slotFreed (notActiveOf k) s l = true)
    (mem : r ∈ pool (withdrawCrane k s)) (number : r.number = n) : r.lane = none ∧ r.called = false := by
  obtain ⟨r0, -, rfl⟩ := mem_withdrawCrane mem
  rw [freeHold_number] at number
  subst number
  rw [if_pos (namedBy_of_slot named freed)]
  exact ⟨rfl, rfl⟩

theorem withdrawCrane_made (inactive : (s.cranes[k]).active = none) : WithdrawMade k s (withdrawCrane k s) where
  crane := by
    rw [withdrawCrane_state, ← inactive]
  lanes l := by
    rw [withdrawCrane_lanes, freedByWithdraw_of_none inactive, inactive]
    simp
  gates := withdrawCrane_gateMarks
  queues := withdrawCrane_numbers
  cleared l n named freed r mem number :=
    withdrawCrane_cleared named (freedByWithdraw_of_none inactive l ▸ freed) mem number
  abandoned n active := by
    rw [inactive] at active
    cases active
  berth := withdrawCrane_berth k s
  reports := by
    rw [withdrawCrane_reports, inactive]
    simp only [Option.bind_none, Option.elim_none, List.nil_append, List.append_nil, freedByWithdraw_of_none inactive,
      reduceCtorEq, ne_eq, not_false_eq_true, and_true]
  rest := by
    conv_lhs => rw [withdrawCrane_state]
    rw [show (withdrawCrane k s).cranes = s.cranes.set k { s.cranes[k] with mode := .withdrawn } by rw [withdrawCrane_state],
      show (withdrawCrane k s).berth = (outOfService k s).berth by rw [withdrawCrane_state]]

end Sys2Proof.Machine


/-! PROOFS. The ACTIVE move abandoned, and a WITHDRAW accepted with it (R19, R127). -/

namespace Sys2Proof.Machine

variable {s t u : State} {k : CraneNo} {n : MoveNo} {r : MoveRecord} {l : LaneNo}

/-! ### The ACTIVE move abandoned -/

/-- The lane of the move `n` of crane `k`. -/
def heldLane (k : CraneNo) (n : MoveNo) (s : State) : Option LaneNo := (findIn s k n).bind (·.lane)

/-- Crane `k` with its active slot emptied. -/
def deactivated (k : CraneNo) (s : State) : State := modCrane k (fun c => { c with active := none }) s

/-- And the slot of the lane `h`, if any, released. -/
def placeReleased (k : CraneNo) (h : Option LaneNo) (s : State) : State :=
  h.elim (deactivated k s) (releaseSlot .withdrawn (deactivated k s))

/-- The move that the slot of the lane `h` names. -/
def namedIn (h : Option LaneNo) (s : State) : Option MoveNo := h.bind fun l => (s.lanes[l]).slot.move

theorem placeReleased_lanes (h : Option LaneNo) (l : LaneNo) : (placeReleased k h s).lanes[l] = { s.lanes[l] with
    slot := if h = some l then releasedSlot (s.lanes[l]).slot else (s.lanes[l]).slot } := by
  unfold placeReleased
  cases h with
  | none => rfl
  | some m =>
    rw [Option.elim_some, releaseSlot_lanes]
    by_cases here : l = m
    · rw [if_pos here, if_pos (congrArg some here.symm), here]
      rfl
    · rw [if_neg here, if_neg fun same => here (Option.some.inj same).symm]
      rfl

theorem placeReleased_queues (h : Option LaneNo) (j : CraneNo) :
    (placeReleased k h s).queues[j] = (s.queues[j]).map (clearedFor (namedIn h s)) := by
  unfold placeReleased
  cases h with
  | none => exact (List.map_id' _).symm
  | some m => exact releaseSlot_queues ..

theorem placeReleased_gateMarks (h : Option LaneNo) (u : GateNo) : (placeReleased k h s).gateMarks[u] =
    (s.gateMarks[u] || h.any fun l => decide (gateOf l = u ∧ (laneFreed s.lanes[l]).signal ≠ (s.lanes[l]).signal)) := by
  unfold placeReleased
  cases h with
  | none => exact (Bool.or_false _).symm
  | some m => exact releaseSlot_gateMarks ..

theorem placeReleased_reports (h : Option LaneNo) : (placeReleased k h s).reports =
    (offered (h.elim [] fun l => cancelReport l .withdrawn (s.lanes[l]).slot) s).reports := by
  unfold placeReleased
  cases h with
  | none => rfl
  | some m =>
    rw [Option.elim_some, Option.elim_some, releaseSlot_reports]
    exact offered_reports_congr _ rfl rfl rfl

theorem placeReleased_state (k : CraneNo) (h : Option LaneNo) (s : State) : placeReleased k h s = { s with
    cranes := s.cranes.set k { s.cranes[k] with active := none }
    lanes := (placeReleased k h s).lanes, queues := (placeReleased k h s).queues
    gateMarks := (placeReleased k h s).gateMarks, reports := (placeReleased k h s).reports } := by
  unfold placeReleased
  cases h with
  | none => rfl
  | some m =>
    rw [Option.elim_some]
    conv_lhs => rw [releaseSlot_state]
    rfl

/-- What the abandonment of move `n` makes of a record, where the slot given up named `named`. -/
def abandonedFrom (s : State) (n : MoveNo) (named : Option MoveNo) (r : MoveRecord) : MoveRecord :=
  if r.number = n then abandonedRecord s (clearedFor named r) else clearedFor named r

theorem abandonedRecord_same (s : State) (r : MoveRecord) : abandonedRecord s r = { r with
    progress := none, abandoned := true
    state := (abandonedRecord s r).state, readyTime := (abandonedRecord s r).readyTime } :=
  evaluateRecord_same s { r with progress := none, abandoned := true }

theorem abandonedFrom_number (s : State) (n : MoveNo) (named : Option MoveNo) (r : MoveRecord) :
    (abandonedFrom s n named r).number = r.number := by
  unfold abandonedFrom
  split
  · rw [abandonedRecord_same]
    exact clearedFor_number ..
  · exact clearedFor_number ..

/-- Move `n` made an abandoned one, and the requests that name it withdrawn. -/
def movedOff (n : MoveNo) (x : State) : State :=
  withdrawRequests (fun q => decide (q.move = n)) (modMove n (abandonedRecord x) x)

theorem movedOff_lanes (x : State) (l : LaneNo) : (movedOff n x).lanes[l] = { x.lanes[l] with
    request := (x.lanes[l]).request.filter fun q => decide (q.move ≠ n) } := by
  unfold movedOff
  rw [withdrawRequests, mapLanes_get, show (modMove n (abandonedRecord x) x).lanes = x.lanes from rfl]
  simp only [ne_eq, decide_not]

theorem movedOff_queues (x : State) (j : CraneNo) : (movedOff n x).queues[j] =
    (x.queues[j]).map fun r => if r.number = n then abandonedRecord x r else r := by
  show (modMove n (abandonedRecord x) x).queues[j] = _
  rw [modMove, mapMoves_get]

theorem movedOff_state (n : MoveNo) (x : State) : movedOff n x = { x with
    lanes := (movedOff n x).lanes, queues := (movedOff n x).queues } := rfl

/-- The abandonment but for the test of the berth state and the report. -/
def givenOver (k : CraneNo) (n : MoveNo) (s : State) : State := movedOff n (placeReleased k (heldLane k n s) s)

theorem abandon_eq (k : CraneNo) (n : MoveNo) (s : State) :
    abandon k n s = report (.moveState n k .abandoned) (testBerth (some k) (givenOver k n s)) := by
  unfold abandon givenOver movedOff placeReleased heldLane
  dsimp only
  rw [show findIn (modCrane k (fun c => { c with active := none }) s) k n = findIn s k n from rfl]
  cases (findIn s k n).bind (·.lane) <;> rfl

theorem givenOver_lanes (l : LaneNo) : (givenOver k n s).lanes[l] = { s.lanes[l] with
    slot := if heldLane k n s = some l then releasedSlot (s.lanes[l]).slot else (s.lanes[l]).slot
    request := (s.lanes[l]).request.filter fun q => decide (q.move ≠ n) } := by
  unfold givenOver
  rw [movedOff_lanes, placeReleased_lanes]

theorem givenOver_queues (j : CraneNo) : (givenOver k n s).queues[j] =
    (s.queues[j]).map (abandonedFrom s n (namedIn (heldLane k n s) s)) := by
  have record (x : MoveRecord) : abandonedRecord (placeReleased k (heldLane k n s) s) x = abandonedRecord s x := by
    unfold abandonedRecord
    refine evaluateRecord_congr ?_ ?_ ?_ _ <;> rw [placeReleased_state]
  unfold givenOver
  rw [movedOff_queues, placeReleased_queues, List.map_map]
  refine List.map_congr_left fun x _ => ?_
  rw [Function.comp_apply, clearedFor_number, record]
  rfl

theorem givenOver_gateMarks (u : GateNo) : (givenOver k n s).gateMarks[u] = (s.gateMarks[u] ||
    (heldLane k n s).any fun l => decide (gateOf l = u ∧ (laneFreed s.lanes[l]).signal ≠ (s.lanes[l]).signal)) :=
  placeReleased_gateMarks ..

theorem givenOver_reports : (givenOver k n s).reports =
    (offered ((heldLane k n s).elim [] fun l => cancelReport l .withdrawn (s.lanes[l]).slot) s).reports :=
  placeReleased_reports ..

theorem givenOver_state (k : CraneNo) (n : MoveNo) (s : State) : givenOver k n s = { s with
    cranes := s.cranes.set k { s.cranes[k] with active := none }
    lanes := (givenOver k n s).lanes, queues := (givenOver k n s).queues
    gateMarks := (givenOver k n s).gateMarks, reports := (givenOver k n s).reports } := by
  have placed := placeReleased_state k (heldLane k n s) s
  unfold givenOver
  generalize placeReleased k (heldLane k n s) s = x at placed ⊢
  exact (movedOff_state n x).trans
    (congrArg (fun y : State => { y with lanes := (movedOff n x).lanes, queues := (movedOff n x).queues }) placed)

/-- What an abandonment writes, but for the table of moves and the lanes. -/
theorem abandon_state (k : CraneNo) (n : MoveNo) (s : State) : abandon k n s = { givenOver k n s with
    berth := (abandon k n s).berth, reports := (abandon k n s).reports } := by
  rw [abandon_eq]
  conv_lhs => rw [report_state, testBerth_eq]
  rw [report_berth, testBerth_eq]
  rfl

theorem abandon_queues (j : CraneNo) : (abandon k n s).queues[j] =
    (s.queues[j]).map (abandonedFrom s n (namedIn (heldLane k n s) s)) := by
  rw [← givenOver_queues, abandon_state]

theorem abandon_lanes (l : LaneNo) : (abandon k n s).lanes[l] = { s.lanes[l] with
    slot := if heldLane k n s = some l then releasedSlot (s.lanes[l]).slot else (s.lanes[l]).slot
    request := (s.lanes[l]).request.filter fun q => decide (q.move ≠ n) } := by
  rw [← givenOver_lanes, abandon_state]

theorem abandon_gateMarks (u : GateNo) : (abandon k n s).gateMarks[u] = (s.gateMarks[u] ||
    (heldLane k n s).any fun l => decide (gateOf l = u ∧ (laneFreed s.lanes[l]).signal ≠ (s.lanes[l]).signal)) := by
  rw [← givenOver_gateMarks, abandon_state]

theorem abandon_cranes (k : CraneNo) (n : MoveNo) (s : State) :
    (abandon k n s).cranes = s.cranes.set k { s.cranes[k] with active := none } := by
  rw [abandon_state, givenOver_state]

theorem givenOver_tested (k : CraneNo) (n : MoveNo) (s : State) : testBerth (some k) (givenOver k n s) =
    { givenOver k n s with
      berth := { s.berth with
        state := if s.berth.state = .running then .running else holdState (testBerth (some k) (givenOver k n s)) }
      reports := (offered (berthReport k s (testBerth (some k) (givenOver k n s)))
        (offered ((heldLane k n s).elim [] fun l => cancelReport l .withdrawn (s.lanes[l]).slot) s)).reports } := by
  refine testBerth_from k ?_ givenOver_reports ?_ ?_
  · rw [givenOver_state]
  · rw [givenOver_state, offered_state]
  · rw [givenOver_state, offered_state]

theorem abandon_berth (k : CraneNo) (n : MoveNo) (s : State) : (abandon k n s).berth = { s.berth with
    state := if s.berth.state = .running then .running else holdState (abandon k n s) } := by
  have hold : holdState (abandon k n s) = holdState (testBerth (some k) (givenOver k n s)) := by
    rw [abandon_eq]
    exact holdState_congr (report_cranes ..) (report_stations ..)
  rw [hold, abandon_eq, report_berth]
  conv_lhs => rw [givenOver_tested]

theorem abandon_reports (k : CraneNo) (n : MoveNo) (s : State) : (abandon k n s).reports =
    (offered (((heldLane k n s).elim [] fun l => cancelReport l .withdrawn (s.lanes[l]).slot) ++
      berthReport k s (abandon k n s) ++ [.moveState n k .abandoned]) s).reports := by
  have told : berthReport k s (abandon k n s) = berthReport k s (testBerth (some k) (givenOver k n s)) := by
    unfold berthReport
    rw [abandon_eq, report_berth]
  have tested := givenOver_tested k n s
  have clock : (givenOver k n s).clock = s.clock := by rw [givenOver_state]
  have params : (givenOver k n s).params = s.params := by rw [givenOver_state]
  rw [told, offered_append, offered_append]
  conv_lhs => rw [abandon_eq]
  generalize testBerth (some k) (givenOver k n s) = b at tested ⊢
  refine report_reports_congr _ ?_ ?_ ?_
  · conv_lhs => rw [tested]
  · rw [tested]
    exact clock.trans (by rw [offered_state, offered_state])
  · rw [tested]
    exact params.trans (by rw [offered_state, offered_state])

/-! ### The slots that a WITHDRAW frees, after the abandonment -/

theorem abandonedRecord_inactive (s : State) (r : MoveRecord) : (abandonedRecord s r).state ≠ .active := by
  unfold abandonedRecord
  rw [evaluateRecord_state]
  split <;> decide

theorem abandonedFrom_state_of_ne (named : Option MoveNo) (other : r.number ≠ n) :
    (abandonedFrom s n named r).state = r.state := by
  unfold abandonedFrom
  rw [if_neg other]
  unfold clearedFor
  split <;> rfl

theorem leaving_abandoned (j : CraneNo) (named : Option MoveNo) (r : MoveRecord) :
    leaving k none j (abandonedFrom s n named r) = leaving k (some n) j r := by
  unfold leaving
  rw [decide_eq_decide]
  refine and_congr_right fun _ => ?_
  by_cases same : r.number = n
  · have out : (abandonedFrom s n named r).state ≠ .active := by
      unfold abandonedFrom
      rw [if_pos same]
      exact abandonedRecord_inactive s _
    simp [out, same]
  · rw [abandonedFrom_state_of_ne named same]
    simp [Ne.symm same]

section
variable (active : (s.cranes[k]).active = some n)
include active

theorem freed_after_abandon (away : heldLane k n s ≠ some l) :
    slotFreed (notActiveOf k) (abandon k n s) l = freedByWithdraw s k l := by
  rw [freedByWithdraw_eq, active, ← leaving_none]
  have slot : ((abandon k n s).lanes[l]).slot = (s.lanes[l]).slot := by
    rw [abandon_lanes]
    exact if_neg away
  unfold slotFreed
  rw [slot]
  cases (s.lanes[l]).slot.move with
  | none => rfl
  | some m =>
    rw [Option.bind_some, Option.bind_some, findMove_of_queues (abandonedFrom_number s n _) abandon_queues]
    cases findMove s m with
    | none => rfl
    | some y => exact leaving_abandoned ..

omit active in
theorem not_freed_after_abandon (held : heldLane k n s = some l) :
    slotFreed (notActiveOf k) (abandon k n s) l = false := by
  have slot : ((abandon k n s).lanes[l]).slot = releasedSlot (s.lanes[l]).slot := by
    rw [abandon_lanes]
    exact if_pos held
  unfold slotFreed
  rw [slot, releasedSlot_move]
  rfl

section
variable (distinct : ((pool s).map (·.number)).Nodup) (holds : ActiveHolds s k)
include distinct holds

theorem held_named (held : heldLane k n s = some l) : (s.lanes[l]).slot.move = some n ∧ freedByWithdraw s k l = true := by
  obtain ⟨r, found, lane⟩ := Option.bind_eq_some_iff.1 held
  have named := holds n r l active found lane
  obtain ⟨mem, number⟩ := findIn_mem found
  refine ⟨named, ?_⟩
  rw [freedByWithdraw_eq]
  unfold slotFreed
  rw [named, Option.bind_some, ← number, findMove_of_mem distinct mem]
  exact decide_eq_true ⟨rfl, .inr (active.trans (congrArg some number.symm))⟩

theorem freedByWithdraw_iff (l : LaneNo) : freedByWithdraw s k l =
    (decide (heldLane k n s = some l) || slotFreed (notActiveOf k) (abandon k n s) l) := by
  by_cases held : heldLane k n s = some l
  · rw [(held_named active distinct holds held).2, decide_eq_true held]
    rfl
  · rw [freed_after_abandon active held, decide_eq_false held]
    rfl

end

/-! ### The two taken together -/

theorem heldLane_of_active : ((s.cranes[k]).active.bind (findIn s k)).bind (·.lane) = heldLane k n s := by
  rw [active]
  rfl

omit active in

omit active in
theorem withdrawn_signal_of_held (held : heldLane k n s = some l) :
    ((withdrawCrane k (abandon k n s)).lanes[l]).signal = (laneFreed s.lanes[l]).signal := by
  have written := withdrawCrane_lanes (k := k) (s := abandon k n s) l
  rw [not_freed_after_abandon held, if_neg Bool.false_ne_true, abandon_lanes, if_pos held] at written
  rw [written]
  exact signal_congr rfl rfl

omit active in
theorem abandoned_signal_of_held (held : heldLane k n s = some l) :
    ((abandon k n s).lanes[l]).signal = (laneFreed s.lanes[l]).signal := by
  rw [abandon_lanes, if_pos held]
  exact signal_congr rfl rfl

omit active in
theorem abandoned_signal_of_away (away : heldLane k n s ≠ some l) :
    ((abandon k n s).lanes[l]).signal = (s.lanes[l]).signal := by
  rw [abandon_lanes, if_neg away]
  exact signal_congr rfl rfl

omit active in
theorem withdrawn_gateMarks (u : GateNo) : (withdrawCrane k (abandon k n s)).gateMarks[u] = (s.gateMarks[u] ||
    lanes.any fun l =>
      decide (gateOf l = u ∧ ((withdrawCrane k (abandon k n s)).lanes[l]).signal ≠ (s.lanes[l]).signal)) := by
  rw [withdrawCrane_gateMarks, abandon_gateMarks, Bool.or_assoc]
  congr 1
  rw [Bool.eq_iff_iff, Bool.or_eq_true, Option.any_eq_true, List.any_eq_true, List.any_eq_true]
  simp only [decide_eq_true_eq]
  constructor
  · rintro (⟨l, held, gate, changed⟩ | ⟨l, mem, gate, changed⟩)
    · refine ⟨l, List.mem_finRange l, gate, ?_⟩
      rw [withdrawn_signal_of_held held]
      exact changed
    · refine ⟨l, mem, gate, ?_⟩
      by_cases held : heldLane k n s = some l
      · rw [withdrawn_signal_of_held held, abandoned_signal_of_held held] at changed
        exact absurd rfl changed
      · rw [abandoned_signal_of_away held] at changed
        exact changed
  · rintro ⟨l, mem, gate, changed⟩
    by_cases held : heldLane k n s = some l
    · rw [withdrawn_signal_of_held held] at changed
      exact .inl ⟨l, held, gate, changed⟩
    · rw [← abandoned_signal_of_away held] at changed
      exact .inr ⟨l, mem, gate, changed⟩

omit active in
/-- A record of the pool after the two was one before. -/
theorem mem_withdrawn (mem : r ∈ pool (withdrawCrane k (abandon k n s))) : ∃ r0 ∈ pool s, ∃ b : Bool,
    r = if b then { abandonedFrom s n (namedIn (heldLane k n s) s) r0 with lane := none, called := false }
      else abandonedFrom s n (namedIn (heldLane k n s) s) r0 := by
  obtain ⟨r1, between, rfl⟩ := mem_withdrawCrane mem
  obtain ⟨j, between⟩ := (mem_pool_iff ..).1 between
  rw [abandon_queues] at between
  obtain ⟨r0, old, rfl⟩ := List.mem_map.1 between
  exact ⟨r0, (mem_pool_iff ..).2 ⟨j, old⟩, _, rfl⟩

omit active in
theorem withdrawn_abandoned (mem : r ∈ pool (withdrawCrane k (abandon k n s))) (number : r.number = n) :
    r.abandoned = true ∧ r.progress = none ∧
      r.state = if eligible (withdrawCrane k (abandon k n s)) r then .ready else .pending := by
  have areas : (withdrawCrane k (abandon k n s)).areas = s.areas := by
    rw [withdrawCrane_state, abandon_state, givenOver_state]
  have bays : (withdrawCrane k (abandon k n s)).bays = s.bays := by
    rw [withdrawCrane_state, abandon_state, givenOver_state]
  rw [eligible_congr areas bays]
  obtain ⟨r0, -, b, rfl⟩ := mem_withdrawn mem
  rw [freeHold_number, abandonedFrom_number] at number
  unfold abandonedFrom
  rw [if_pos number]
  have state := evaluateRecord_state s
    { clearedFor (namedIn (heldLane k n s) s) r0 with progress := none, abandoned := true }
  have same := abandonedRecord_same s (clearedFor (namedIn (heldLane k n s) s) r0)
  have elig : eligible s (abandonedRecord s (clearedFor (namedIn (heldLane k n s) s) r0)) = eligible s
      { clearedFor (namedIn (heldLane k n s) s) r0 with progress := none, abandoned := true } :=
    eligible_restated s (evaluateRecord_same ..)
  rw [← elig] at state
  cases b with
  | false =>
    rw [if_neg Bool.false_ne_true]
    exact ⟨by rw [same], by rw [same], state⟩
  | true =>
    rw [if_pos rfl]
    exact ⟨by rw [same], by rw [same], state⟩

omit active in
theorem abandonedFrom_cleared {m : MoveNo} (number : r.number = m) :
    (abandonedFrom s n (some m) r).lane = none ∧ (abandonedFrom s n (some m) r).called = false := by
  have cleared : clearedFor (some m) r = { r with lane := none, called := false } := if_pos (congrArg some number.symm)
  unfold abandonedFrom
  rw [cleared]
  split
  · rw [abandonedRecord_same]
    exact ⟨rfl, rfl⟩
  · exact ⟨rfl, rfl⟩

omit active in
theorem withdrawn_cleared_of_held {m : MoveNo} (held : heldLane k n s = some l) (named : (s.lanes[l]).slot.move = some m)
    (mem : r ∈ pool (withdrawCrane k (abandon k n s))) (number : r.number = m) : r.lane = none ∧ r.called = false := by
  have name : namedIn (heldLane k n s) s = some m := by
    unfold namedIn
    rw [held]
    exact named
  obtain ⟨r0, -, b, rfl⟩ := mem_withdrawn mem
  rw [freeHold_number, abandonedFrom_number] at number
  rw [name]
  split
  · exact ⟨rfl, rfl⟩
  · exact abandonedFrom_cleared number

omit active in
theorem withdrawn_berthState (k : CraneNo) (n : MoveNo) (s : State) :
    (withdrawCrane k (abandon k n s)).berth = (abandon k n s).berth := by
  have uncounted (m : Mode) : ((s.cranes.set k { s.cranes[k] with active := none }).set k
      { (s.cranes.set k { s.cranes[k] with active := none })[k] with mode := m }) =
      s.cranes.set k { s.cranes[k] with active := none, mode := m } := by
    refine Vector.ext_get fun j => ?_
    rw [Vector.get_set, Vector.get_set, Vector.get_set, Vector.get_set]
    split <;> simp
  have cranes : (withdrawCrane k (abandon k n s)).cranes = s.cranes.set k
      { s.cranes[k] with active := none, mode := .withdrawn } := by
    rw [withdrawCrane_state, abandon_cranes]
    exact uncounted .withdrawn
  have stations : (withdrawCrane k (abandon k n s)).stations = s.stations := by
    rw [withdrawCrane_state, abandon_state, givenOver_state]
  have stations' : (abandon k n s).stations = s.stations := by rw [abandon_state, givenOver_state]
  have hold : holdState (withdrawCrane k (abandon k n s)) = holdState (abandon k n s) := by
    unfold holdState qualifying stationState
    rw [cranes, stations, abandon_cranes, stations']
    have one (j : CraneNo) : ((decide (((s.cranes.set k { s.cranes[k] with active := none, mode := .withdrawn })[j]).mode =
        .inService) && decide ((s.stations[(Station.crane j).index]).state ≠ .silent)) &&
        ((s.cranes.set k { s.cranes[k] with active := none, mode := .withdrawn })[j]).active.isSome) =
        ((decide (((s.cranes.set k { s.cranes[k] with active := none })[j]).mode =
        .inService) && decide ((s.stations[(Station.crane j).index]).state ≠ .silent)) &&
        ((s.cranes.set k { s.cranes[k] with active := none })[j]).active.isSome) := by
      rw [Vector.get_set, Vector.get_set]
      split <;> simp
    simp only [one]
  rw [withdrawCrane_berth, hold, abandon_berth]
  by_cases running : s.berth.state = .running
  · simp only [running, if_true]
  · simp only [running, if_false, holdState_held]

end

end Sys2Proof.Machine


/-! PROOFS. WITHDRAW, and its acceptance by SILENCE (R19, R126, R127). -/

namespace Sys2Proof.Machine

variable {s t u v : State} {k : CraneNo} {n : MoveNo} {r : MoveRecord} {l : LaneNo} {d : PendingDirective}

/-! ### The steps with an ACTIVE move -/

section
variable (active : (s.cranes[k]).active = some n) (distinct : ((pool s).map (·.number)).Nodup) (holds : ActiveHolds s k)
include active distinct holds

theorem withdrawn_lanes (l : LaneNo) : (withdrawCrane k (abandon k n s)).lanes[l] = { s.lanes[l] with
    slot := if freedByWithdraw s k l then releasedSlot (s.lanes[l]).slot else (s.lanes[l]).slot
    request := (s.lanes[l]).request.filter fun q => decide (q.crane ≠ k ∧ (s.cranes[k]).active ≠ some q.move) } := by
  have request (x : Option Request) : (x.filter fun q => decide (q.move ≠ n)).filter (fun q => decide (q.crane ≠ k)) =
      x.filter fun q => decide (q.crane ≠ k ∧ (s.cranes[k]).active ≠ some q.move) := by
    rw [filter_request_twice]
    congr 1
    funext q
    rw [active, Bool.eq_iff_iff]
    simp only [Bool.and_eq_true, decide_eq_true_eq, ne_eq, Option.some.injEq]
    exact ⟨fun ⟨move, crane⟩ => ⟨crane, fun same => move same.symm⟩, fun ⟨crane, move⟩ => ⟨fun same => move same.symm, crane⟩⟩
  rw [withdrawCrane_lanes, abandon_lanes, freedByWithdraw_iff active distinct holds]
  dsimp only
  rw [request]
  by_cases held : heldLane k n s = some l
  · rw [if_pos held, not_freed_after_abandon held, decide_eq_true held]
    rfl
  · rw [if_neg held, decide_eq_false held, Bool.false_or]

theorem withdrawn_cleared {m : MoveNo} (named : (s.lanes[l]).slot.move = some m) (freed : freedByWithdraw s k l = true)
    (mem : r ∈ pool (withdrawCrane k (abandon k n s))) (number : r.number = m) : r.lane = none ∧ r.called = false := by
  by_cases held : heldLane k n s = some l
  · exact withdrawn_cleared_of_held held named mem number
  · rw [freedByWithdraw_iff active distinct holds, decide_eq_false held, Bool.false_or] at freed
    refine withdrawCrane_cleared ?_ freed mem number
    rw [abandon_lanes]
    exact (congrArg Slot.move (if_neg held)).trans named

omit distinct holds in
theorem withdrawn_reports : (withdrawCrane k (abandon k n s)).reports = (offered (
    (heldLane k n s).elim [] (fun l => cancelReport l .withdrawn (s.lanes[l]).slot) ++
      berthReport k s (withdrawCrane k (abandon k n s)) ++ [.moveState n k .abandoned] ++
      lanes.flatMap fun l => if freedByWithdraw s k l = true ∧ heldLane k n s ≠ some l then
        cancelReport l .withdrawn (s.lanes[l]).slot else []) s).reports := by
  have quiet : berthReport k (abandon k n s) (withdrawCrane k (abandon k n s)) = [] := by
    unfold berthReport
    rw [withdrawn_berthState, if_pos rfl]
  have told : berthReport k s (withdrawCrane k (abandon k n s)) = berthReport k s (abandon k n s) := by
    unfold berthReport
    rw [withdrawn_berthState]
  have cancels : (fun l => if slotFreed (notActiveOf k) (abandon k n s) l then
      cancelReport l .withdrawn ((abandon k n s).lanes[l]).slot else []) =
      fun l => if freedByWithdraw s k l = true ∧ heldLane k n s ≠ some l then
        cancelReport l .withdrawn (s.lanes[l]).slot else [] := by
    funext l
    by_cases held : heldLane k n s = some l
    · rw [not_freed_after_abandon held, if_neg Bool.false_ne_true, if_neg fun h => h.2 held]
    · rw [freed_after_abandon active held, abandon_lanes, if_neg held]
      simp only [held, ne_eq, not_false_eq_true, and_true]
  rw [withdrawCrane_reports, quiet, cancels, told, List.nil_append, offered_append]
  refine offered_reports_congr _ (abandon_reports k n s) ?_ ?_ <;>
    rw [abandon_state, givenOver_state, offered_state]

theorem withdrawn_made : WithdrawMade k s (withdrawCrane k (abandon k n s)) where
  crane := by
    refine Vector.ext_get fun j => ?_
    rw [withdrawCrane_state, abandon_cranes, Vector.get_set, Vector.get_set, Vector.get_set, Vector.get_set]
    split <;> simp
  lanes := withdrawn_lanes active distinct holds
  gates := withdrawn_gateMarks
  queues j := (withdrawCrane_numbers j).trans (queueNumbers_map (abandon_queues j) fun r => abandonedFrom_number s n _ r)
  cleared l m named freed r mem number := withdrawn_cleared active distinct holds named freed mem number
  abandoned m same r mem number := by
    rw [active] at same
    cases same
    exact withdrawn_abandoned mem number
  berth := by
    rw [withdrawCrane_berth, abandon_berth]
    by_cases running : s.berth.state = .running
    · simp only [running, if_true]
    · simp only [running, if_false, holdState_held]
  reports := by
    rw [heldLane_of_active active, active]
    exact withdrawn_reports active
  rest := by
    have cranes : (withdrawCrane k (abandon k n s)).cranes =
      (abandon k n s).cranes.set k { (abandon k n s).cranes[k] with mode := .withdrawn } := by rw [withdrawCrane_state]
    have berth : (withdrawCrane k (abandon k n s)).berth = (outOfService k (abandon k n s)).berth := by
      rw [withdrawCrane_state]
    conv_lhs => rw [withdrawCrane_state]
    rw [cranes, berth, abandon_state, givenOver_state]

end

/-! ### WITHDRAW received (R126) -/

/-- What the receipt of a WITHDRAW leaves: a take-back, and the directive in its slot. -/
theorem withdrawReceived_eq (k : CraneNo) (d : PendingDirective) (s : State) :
    withdrawReceived k d s = modCrane k (fun c => { c with directive := some d }) (takeBackAndFollow k s) := rfl

theorem withdrawReceived_get (j : CraneNo) : (withdrawReceived k d s).cranes[j] =
    if j = k then { (takeBackAndFollow k s).cranes[k] with directive := some d }
    else (takeBackAndFollow k s).cranes[j] := modCrane_get ..

theorem withdrawReceived_numbers (j : CraneNo) : queueNumbers (withdrawReceived k d s) j = queueNumbers s j :=
  (takeBackAndFollow_takenBack k s).numbers j

theorem withdrawReceived_crane : (withdrawReceived k d s).cranes[k] = { s.cranes[k] with
    staged := none, jobMark := ((withdrawReceived k d s).cranes[k]).jobMark, directive := some d } ∧
    ((withdrawReceived k d s).cranes[k]).jobMark =
      if (s.cranes[k]).staged.isSome then agreement (withdrawReceived k d s) k else (s.cranes[k]).jobMark := by
  have back := (takeBackAndFollow_takenBack k s).crane
  have crane : (withdrawReceived k d s).cranes[k] = { (takeBackAndFollow k s).cranes[k] with directive := some d } :=
    (withdrawReceived_get k).trans (if_pos rfl)
  have agreed : agreement (withdrawReceived k d s) k = agreement (takeBackAndFollow k s) k := by
    refine agreement_congr (fun j => rfl) ?_ ?_ ?_ <;> rw [crane]
  rw [agreed]
  generalize takeBackAndFollow k s = x at back crane ⊢
  rw [crane, back]
  exact ⟨rfl, rfl⟩

theorem withdrawReceived_of_directive : ((withdrawReceived k d s).cranes[k]).directive = some d := by
  rw [withdrawReceived_crane.1]

theorem withdrawReceived_active : ((withdrawReceived k d s).cranes[k]).active = (s.cranes[k]).active := by
  rw [withdrawReceived_crane.1]

theorem withdrawReceived_other {j : CraneNo} (other : j ≠ k) : (withdrawReceived k d s).cranes[j] = s.cranes[j] := by
  rw [withdrawReceived_get, if_neg other]
  exact (takeBackAndFollow_takenBack k s).others j other

theorem withdrawReceived_rest (k : CraneNo) (d : PendingDirective) (s : State) : withdrawReceived k d s = { s with
    cranes := (withdrawReceived k d s).cranes, queues := (withdrawReceived k d s).queues
    areas := (withdrawReceived k d s).areas, jobs := (withdrawReceived k d s).jobs
    gangs := (withdrawReceived k d s).gangs, reports := (withdrawReceived k d s).reports } := by
  have rest := (takeBackAndFollow_takenBack k s).rest
  rw [withdrawReceived_eq]
  generalize takeBackAndFollow k s = x at rest ⊢
  exact congrArg (modCrane k fun c => { c with directive := some d }) rest

theorem withdrawReceived_kept (k : CraneNo) (d : PendingDirective) (s : State) :
    (withdrawReceived k d s).lanes = s.lanes ∧ (withdrawReceived k d s).gateMarks = s.gateMarks ∧
    (withdrawReceived k d s).berth = s.berth ∧ (withdrawReceived k d s).clock = s.clock ∧
    (withdrawReceived k d s).params = s.params ∧ (withdrawReceived k d s).roster = s.roster ∧
    (withdrawReceived k d s).bays = s.bays ∧ (withdrawReceived k d s).stations = s.stations ∧
    (withdrawReceived k d s).field = s.field ∧ (withdrawReceived k d s).uplink = s.uplink := by
  have rest := withdrawReceived_rest k d s
  generalize withdrawReceived k d s = b at rest ⊢
  rw [rest]
  exact ⟨rfl, rfl, rfl, rfl, rfl, rfl, rfl, rfl, rfl, rfl⟩

theorem pool_numbers_congr (numbers : ∀ j, queueNumbers t j = queueNumbers s j) :
    (pool t).map (·.number) = (pool s).map (·.number) := by
  rw [pool_numbers, pool_numbers]
  exact List.flatMap_congr fun j _ => numbers j

theorem withdrawReceived_holds (holds : ActiveHolds s k) : ActiveHolds (withdrawReceived k d s) k := by
  intro n r l active found lane
  obtain ⟨f, queues, follow⟩ := (takeBackAndFollow_takenBack k s).records
  have number (r : MoveRecord) : (f r).number = r.number := by rw [(follow r).1]
  have queue : (withdrawReceived k d s).queues[k] = (s.queues[k]).map f := queues k
  rw [findIn_of_queue queue number] at found
  obtain ⟨r0, before, rfl⟩ := Option.map_eq_some_iff.1 found
  rw [(follow r0).1] at lane
  rw [withdrawReceived_rest]
  exact holds n r0 l (withdrawReceived_active.symm.trans active) before lane

/-! ### The acceptance (R121, R127) -/

theorem silenceDue_iff (s : State) (k : CraneNo) : silenceDue s k = true ↔
    (∃ d, (s.cranes[k]).directive = some d ∧ d.kind = .withdraw) ∧
    ∃ c, (s.cranes[k]).silenceStart = some c ∧ par s Config.SILENT_WITHDRAW ≤ age s.clock c := by
  unfold silenceDue withdrawPending
  rw [Bool.and_eq_true, Option.any_eq_true, Option.any_eq_true]
  simp only [decide_eq_true_eq]

theorem silenceDue_received (kind : d.kind = .withdraw) : silenceDue (withdrawReceived k d s) k = true ↔
    ∃ c, (s.cranes[k]).silenceStart = some c ∧ par s Config.SILENT_WITHDRAW ≤ age s.clock c := by
  have silence : ((withdrawReceived k d s).cranes[k]).silenceStart = (s.cranes[k]).silenceStart := by
    rw [withdrawReceived_crane.1]
  have clock : (withdrawReceived k d s).clock = s.clock := by rw [withdrawReceived_rest]
  have params : (withdrawReceived k d s).params = s.params := by rw [withdrawReceived_rest]
  rw [silenceDue_iff, silence, clock, show par (withdrawReceived k d s) Config.SILENT_WITHDRAW =
    par s Config.SILENT_WITHDRAW by unfold par; rw [params]]
  exact and_iff_right ⟨d, withdrawReceived_of_directive, kind⟩

theorem testAcceptance_of_active (active : (s.cranes[k]).active.isSome = true) : testAcceptance k s = s := by
  unfold testAcceptance
  split
  · rfl
  · exact if_pos active

theorem testAcceptance_of_withdraw (pending : (s.cranes[k]).directive = some d) (kind : d.kind = .withdraw)
    (inactive : (s.cranes[k]).active = none) : testAcceptance k s = accepted k d .normal (withdrawCrane k s) := by
  unfold testAcceptance
  rw [pending, inactive]
  dsimp only
  rw [if_neg (by decide), if_pos kind]

/-- What a WITHDRAW that is not refused makes of the state. -/
def withdrawnAtReceipt (k : CraneNo) (d : PendingDirective) (s : State) : State :=
  if silenceDue (testAcceptance k (withdrawReceived k d s)) k then
    acceptBySilence k d (testAcceptance k (withdrawReceived k d s))
  else testAcceptance k (withdrawReceived k d s)

theorem withdrawnAtReceipt_uplinkFree (k : CraneNo) (d : PendingDirective) : UplinkFree (withdrawnAtReceipt k d) := fun u s => by
  unfold withdrawnAtReceipt
  rw [withdrawReceived_eq, withdrawReceived_eq, takeBackAndFollow_uplinkFree, show modCrane k
    (fun c => { c with directive := some d }) (withUplink u (takeBackAndFollow k s)) = withUplink u
      (modCrane k (fun c => { c with directive := some d }) (takeBackAndFollow k s)) from rfl, testAcceptance_uplinkFree]
  generalize testAcceptance k (modCrane k (fun c => { c with directive := some d }) (takeBackAndFollow k s)) = x
  rw [show silenceDue (withUplink u x) k = silenceDue x k from rfl]
  split
  · exact acceptBySilence_uplinkFree k d u x
  · rfl

theorem acceptBySilence_of_active (active : (s.cranes[k]).active = some n)
    (distinct : ((pool s).map (·.number)).Nodup) (holds : ActiveHolds s k) :
    SilenceAccepted k d s (acceptBySilence k d s) := by
  refine ⟨withdrawCrane k (abandon k n s), withdrawn_made active distinct holds, ?_⟩
  unfold acceptBySilence
  rw [active]
  rfl

theorem acceptBySilence_of_inactive (inactive : (s.cranes[k]).active = none) :
    SilenceAccepted k d s (acceptBySilence k d s) := by
  refine ⟨withdrawCrane k s, withdrawCrane_made inactive, ?_⟩
  unfold acceptBySilence
  rw [inactive]
  rfl

section
variable {tele : Telegram} {o : DirectiveOrder}

theorem withdraw_done (ready : DirectiveReady s tele k o) (kind : o.kind = .withdraw) (served : (s.cranes[k]).mode ≠ .withdrawn) :
    exec .withdraw s = .next (withUplink (answeredUplink s.uplink tele .accepted [] none)
      (withdrawnAtReceipt k ⟨o.number, .withdraw, o.move, s.clock⟩ s)) := by
  have taken := directive_done ready (withdrawnAtReceipt_uplinkFree k ⟨o.number, .withdraw, o.move, s.clock⟩) (by
    unfold applyDirective
    rw [kind]
    exact if_neg served)
  rw [kind] at taken
  exact taken

theorem withdraw_refused (ready : DirectiveReady s tele k o) (kind : o.kind = .withdraw)
    (out : (s.cranes[k]).mode = .withdrawn) : exec .withdraw s = .next (answeredOnly s tele .state) := by
  have refused := directive_turned_down (r := .state) ready (by
    unfold applyDirective
    rw [kind]
    exact if_pos out)
  rw [kind] at refused
  exact refused

end

theorem withdrawnAtReceipt_of_active (active : (s.cranes[k]).active.isSome = true) :
    withdrawnAtReceipt k d s = if silenceDue (withdrawReceived k d s) k then acceptBySilence k d (withdrawReceived k d s)
      else withdrawReceived k d s := by
  unfold withdrawnAtReceipt
  rw [testAcceptance_of_active (by rw [withdrawReceived_active]; exact active)]

theorem withdrawnAtReceipt_of_inactive (kind : d.kind = .withdraw) (inactive : (s.cranes[k]).active = none) :
    withdrawnAtReceipt k d s = accepted k d .normal (withdrawCrane k (withdrawReceived k d s)) := by
  have settled : ((accepted k d .normal (withdrawCrane k (withdrawReceived k d s))).cranes[k]).directive = none := by
    rw [accepted_state]
    show ((settledDirective k (withdrawCrane k (withdrawReceived k d s))).cranes[k]).directive = none
    rw [settledDirective_get, if_pos rfl]
  have idle : ¬silenceDue (accepted k d .normal (withdrawCrane k (withdrawReceived k d s))) k = true := fun due => by
    obtain ⟨⟨e, pending, -⟩, -⟩ := (silenceDue_iff ..).1 due
    rw [settled] at pending
    cases pending
  unfold withdrawnAtReceipt
  rw [testAcceptance_of_withdraw withdrawReceived_of_directive kind (withdrawReceived_active.trans inactive), if_neg idle]

/-- Settles O37: the receipt of the WITHDRAW, and its acceptance at once, by SILENCE or not at all. -/
theorem withdrawTaken : Obligations.WithdrawTaken := by
  intro s t k o ready kind d b up
  refine ⟨withdraw_refused ready kind, ⟨withdrawReceived_crane.1, withdrawReceived_crane.2, fun n staged r mem number => ?_,
    fun j other => withdrawReceived_other other, withdrawReceived_numbers, ?_⟩, fun served active brief => ?_,
    fun c served active silent long distinct holds => ?_, fun served inactive => ?_⟩
  · obtain ⟨r0, -, -, back⟩ := (takeBackAndFollow_takenBack k s).of_mem (show r ∈ pool (takeBackAndFollow k s) from mem)
    exact back (number ▸ staged)
  · exact withdrawReceived_kept k d s
  · have idle : ¬silenceDue b k = true := fun due => by
      obtain ⟨c, silent, long⟩ := (silenceDue_received (d := d) rfl).1 due
      exact absurd (brief c silent) (not_lt.2 long)
    refine (withdraw_done ready kind served).trans ?_
    rw [withdrawnAtReceipt_of_active active, if_neg idle]
    rfl
  · obtain ⟨n, named⟩ := Option.isSome_iff_exists.1 active
    refine ⟨acceptBySilence k d b, (withdraw_done ready kind served).trans ?_,
      acceptBySilence_of_active (withdrawReceived_active.trans named) ?_ (withdrawReceived_holds holds)⟩
    · rw [withdrawnAtReceipt_of_active active, if_pos ((silenceDue_received rfl).2 ⟨c, silent, long⟩)]
      rfl
    · rw [pool_numbers_congr withdrawReceived_numbers]
      exact distinct
  · refine ⟨withdrawCrane k b, withdrawCrane_made (withdrawReceived_active.trans inactive),
      (withdraw_done ready kind served).trans ?_⟩
    rw [withdrawnAtReceipt_of_inactive rfl inactive]
    rfl

/-! ### SILENCE_EXPIRY -/

/-- Crane `k` WITHDRAWN, its ACTIVE move, if any, abandoned before. -/
def withdrawnBySilence (k : CraneNo) (s : State) : State :=
  withdrawCrane k ((s.cranes[k]).active.elim s fun n => abandon k n s)

/-- And the other cranes evaluated, and a dispatch pass made. -/
def silenceFollowed (k : CraneNo) (v : State) : State :=
  dispatchPass (evaluateMany (cranes.filter fun j => decide (j ≠ k)) (testAgreement k v))

theorem acceptBySilence_eq (k : CraneNo) (d : PendingDirective) (s : State) : acceptBySilence k d s =
    accepted k d (.silence (s.cranes[k]).active) (silenceFollowed k (withdrawnBySilence k s)) := by
  unfold acceptBySilence withdrawnBySilence
  cases (s.cranes[k]).active <;> rfl

theorem silenceFollowed_quiet (k : CraneNo) (v : State) : QReach v (silenceFollowed k v) :=
  .trans (testAgreement_quiet ..) (.trans (evaluateMany_quiet ..) (dispatchPass_quiet _))

theorem silenceFollowed_beside (k : CraneNo) (v : State) :
    Beside k (fun _ => False) (fun _ => true) (testAgreement k v) (silenceFollowed k v) := by
  refine .trans (evaluateMany_beside (fun mem => ?_) fun j _ => ⟨fun _ _ h => h, fun _ _ => rfl⟩)
    (.of_relashed (dispatchPass_relashed _))
  have other := of_decide_eq_true (List.mem_filter.1 mem).2
  exact absurd rfl other

theorem members_of_moves (moves : ∀ i : CraneNo, SameMoves s.queues[i] t.queues[i]) (j : CraneNo) (n : MoveNo) :
    n ∈ queueNumbers t j ↔ n ∈ queueNumbers s j := by
  refine ⟨mem_numbers_of_moves (moves j), fun mem => ?_⟩
  obtain ⟨r, old, rfl⟩ := List.mem_map.1 mem
  obtain ⟨r', now, number⟩ := (moves j).kept r old
  exact number ▸ List.mem_map_of_mem now

theorem silenceFollowed_crane (k : CraneNo) (v : State) : (silenceFollowed k v).cranes[k] = { v.cranes[k] with
    jobMark := agreement (silenceFollowed k v) k } := by
  have beside := silenceFollowed_beside k v
  have crane := beside.crane
  rw [show (testAgreement k v).cranes[k] = { v.cranes[k] with jobMark := agreement v k } from modCrane_same ..] at crane
  have agreed : agreement (silenceFollowed k v) k = agreement v k := by
    refine agreement_of_members (members_of_moves (QReach.moves (silenceFollowed_quiet k v))) ?_ ?_ ?_ <;> rw [crane]
  rw [agreed, crane]

theorem withdrawnBySilence_crane (k : CraneNo) (s : State) : (withdrawnBySilence k s).cranes[k] =
    { s.cranes[k] with mode := .withdrawn, active := none } := by
  have written (x : State) : (withdrawCrane k x).cranes[k] = { x.cranes[k] with mode := .withdrawn } := by
    rw [withdrawCrane_state]
    exact (Vector.get_set ..).trans (if_pos rfl)
  unfold withdrawnBySilence
  rw [written]
  cases active : (s.cranes[k]).active with
  | none => rw [Option.elim_none, ← active]
  | some n => rw [Option.elim_some, abandon_crane]

theorem withdrawnBySilence_numbers (k j : CraneNo) (s : State) :
    queueNumbers (withdrawnBySilence k s) j = queueNumbers s j := by
  refine (withdrawCrane_numbers j).trans ?_
  cases (s.cranes[k]).active with
  | none => rfl
  | some n => exact queueNumbers_map (abandon_queues j) fun r => abandonedFrom_number s n _ r

theorem withdrawnBySilence_requests {q : Request} (stands : ((withdrawnBySilence k s).lanes[l]).request = some q) :
    q.crane ≠ k := by
  unfold withdrawnBySilence at stands
  rw [withdrawCrane_lanes] at stands
  have passed := (Option.filter_eq_some_iff.1 stands).2
  exact of_decide_eq_true passed

theorem withdrawnBySilence_kept (k : CraneNo) (s : State) : (withdrawnBySilence k s).berth.causes = s.berth.causes ∧
    Steady s (withdrawnBySilence k s) ∧ (withdrawnBySilence k s).cycles = s.cycles := by
  have withdrawn (x : State) : (withdrawCrane k x).berth.causes = x.berth.causes ∧ (withdrawCrane k x).cycles = x.cycles :=
    ⟨by rw [withdrawCrane_berth], by rw [withdrawCrane_state]⟩
  obtain ⟨causes, cycles⟩ := withdrawn ((s.cranes[k]).active.elim s fun n => abandon k n s)
  unfold withdrawnBySilence
  rw [causes, cycles]
  have steady := withdrawCrane_steady k ((s.cranes[k]).active.elim s fun n => abandon k n s)
  cases active : (s.cranes[k]).active with
  | none =>
    rw [active] at steady
    exact ⟨rfl, steady, rfl⟩
  | some n =>
    rw [active] at steady
    have before : Steady s (abandon k n s) := by
      rw [abandon_state, givenOver_state]
      exact ⟨rfl, rfl, rfl, rfl, rfl, rfl, rfl, rfl⟩
    refine ⟨?_, before.trans steady, ?_⟩
    · rw [Option.elim_some, abandon_berth]
    · rw [Option.elim_some, abandon_state, givenOver_state]

end Sys2Proof.Machine


/-! PROOFS. SILENCE_EXPIRY (R19, R127). -/

namespace Sys2Proof.Machine

variable {s t u v : State} {k : CraneNo} {n : MoveNo} {r : MoveRecord} {l : LaneNo} {d : PendingDirective}

theorem withdrawnBySilence_abandoned (active : (s.cranes[k]).active = some n) (mem : r ∈ pool (withdrawnBySilence k s))
    (number : r.number = n) : r.abandoned = true := by
  unfold withdrawnBySilence at mem
  rw [active] at mem
  exact (withdrawn_abandoned mem number).1

/-- The state after the acceptance but for the directive slot and its report. -/
def silenceServed (k : CraneNo) (s : State) : State := silenceFollowed k (withdrawnBySilence k s)

theorem silenceServed_moves (k : CraneNo) (s : State) (j : CraneNo) :
    SameMoves (withdrawnBySilence k s).queues[j] (silenceServed k s).queues[j] :=
  QReach.moves (silenceFollowed_quiet k _) j

theorem silenceServed_members (j : CraneNo) (n : MoveNo) :
    n ∈ queueNumbers (silenceServed k s) j ↔ n ∈ queueNumbers s j := by
  rw [← withdrawnBySilence_numbers k j s]
  exact members_of_moves (silenceServed_moves k s) j n

theorem pool_members_congr (members : ∀ j n, n ∈ queueNumbers t j ↔ n ∈ queueNumbers s j) (n : MoveNo) :
    n ∈ (pool t).map (·.number) ↔ n ∈ (pool s).map (·.number) := by
  rw [pool_numbers, pool_numbers, List.mem_flatMap, List.mem_flatMap]
  simp only [members]

theorem silenceServed_abandoned (active : (s.cranes[k]).active = some n) (mem : r ∈ pool (silenceServed k s))
    (number : r.number = n) : r.abandoned = true := by
  obtain ⟨j, mem⟩ := (mem_pool_iff ..).1 mem
  obtain ⟨r0, before, plan⟩ := (silenceServed_moves k s j).plan r mem
  rw [plan.abandoned]
  exact withdrawnBySilence_abandoned active ((mem_pool_iff ..).2 ⟨j, before⟩) (plan.number.symm.trans number)

theorem silenceFollowed_numbers (k : CraneNo) (v : State) : queueNumbers (silenceFollowed k v) k = queueNumbers v k := by
  refine (silenceFollowed_beside k v).numbers.trans ?_
  unfold queueNumbers
  rw [testAgreement_queues]

theorem silenceServed_numbers (k : CraneNo) (s : State) : queueNumbers (silenceServed k s) k = queueNumbers s k :=
  (silenceFollowed_numbers k (withdrawnBySilence k s)).trans (withdrawnBySilence_numbers k k s)

theorem silenceServed_requests {q : Request} (stands : ((silenceServed k s).lanes[l]).request = some q) : q.crane ≠ k := by
  intro own
  have before := (silenceFollowed_beside k (withdrawnBySilence k s)).requests l q stands own
  rw [testAgreement_lanes] at before
  exact withdrawnBySilence_requests before own

theorem silenceServed_crane (k : CraneNo) (s : State) : (silenceServed k s).cranes[k] =
    { s.cranes[k] with mode := .withdrawn, active := none, jobMark := agreement (silenceServed k s) k } := by
  refine (silenceFollowed_crane k (withdrawnBySilence k s)).trans ?_
  rw [withdrawnBySilence_crane]
  rfl

theorem silenceServed_kept (k : CraneNo) (s : State) : (silenceServed k s).berth.causes = s.berth.causes ∧
    Steady s (silenceServed k s) ∧ (silenceServed k s).cycles = s.cycles := by
  obtain ⟨causes, steady, cycles⟩ := withdrawnBySilence_kept k s
  have quiet := silenceFollowed_quiet k (withdrawnBySilence k s)
  have kept := QReach.keeps quiet
  exact ⟨(congrArg Berth.causes kept.berth).trans causes, steady.trans (QReach.steady quiet), kept.cycles.trans cycles⟩

/-- What the directive slot's emptying and the report add. -/
theorem acceptBySilence_served (k : CraneNo) (d : PendingDirective) (s : State) : acceptBySilence k d s =
    { settledDirective k (silenceServed k s) with reports := (acceptBySilence k d s).reports } := by
  rw [acceptBySilence_eq, accepted_state]
  rfl

theorem silenceExpires_of_due (pending : (s.cranes[k]).directive = some d) (due : silenceDue s k = true) :
    silenceExpires k s = acceptBySilence k d s := by
  unfold silenceExpires
  rw [pending]
  exact if_pos due

theorem silenceExpires_of_early (early : ¬silenceDue s k = true) : silenceExpires k s = s := by
  unfold silenceExpires
  split
  · exact if_neg early
  · rfl

/-- What an acceptance by SILENCE leaves in every state. -/
theorem acceptBySilence_crane (k : CraneNo) (d : PendingDirective) (s : State) : (acceptBySilence k d s).cranes[k] =
    { s.cranes[k] with
      mode := .withdrawn, active := none, jobMark := agreement (acceptBySilence k d s) k, directive := none } := by
  have written := acceptBySilence_served k d s
  have served := silenceServed_crane k s
  have crane : (acceptBySilence k d s).cranes[k] = { (silenceServed k s).cranes[k] with directive := none } := by
    rw [written]
    exact (settledDirective_get ..).trans (if_pos rfl)
  have agreed : agreement (acceptBySilence k d s) k = agreement (silenceServed k s) k := by
    refine agreement_congr (fun j => ?_) ?_ ?_ ?_
    · rw [written]
      rfl
    all_goals rw [crane]
  rw [agreed, crane, served]

theorem acceptBySilence_queues (k : CraneNo) (d : PendingDirective) (s : State) :
    (acceptBySilence k d s).queues = (silenceServed k s).queues := by
  rw [acceptBySilence_served]
  rfl

theorem acceptBySilence_lanes (k : CraneNo) (d : PendingDirective) (s : State) :
    (acceptBySilence k d s).lanes = (silenceServed k s).lanes := by
  rw [acceptBySilence_served]
  rfl

theorem acceptBySilence_kept (k : CraneNo) (d : PendingDirective) (s : State) :
    (acceptBySilence k d s).berth.causes = s.berth.causes ∧ (acceptBySilence k d s).uplink = s.uplink ∧
    (acceptBySilence k d s).clock = s.clock ∧ (acceptBySilence k d s).params = s.params ∧
    (acceptBySilence k d s).cycles = s.cycles ∧ (acceptBySilence k d s).roster = s.roster ∧
    (acceptBySilence k d s).bays = s.bays ∧ (acceptBySilence k d s).stations = s.stations ∧
    (acceptBySilence k d s).field = s.field := by
  obtain ⟨causes, steady, cycles⟩ := silenceServed_kept k s
  rw [acceptBySilence_served]
  exact ⟨causes, steady.uplink, steady.clock, steady.params, cycles, steady.roster, steady.bays, steady.stations,
    steady.field⟩

/-- Settles O38: the WITHDRAW accepted by SILENCE where it is due, with the steps of R127 where the ACTIVE move holds the
slot that names it, and nothing where it is not. -/
theorem silenceAcceptsWithdraw : Obligations.SilenceAcceptsWithdraw := by
  intro k s awoken
  refine ⟨fun d c pending kind silent long => ?_, fun early => next_awake awoken (silenceExpires_of_early fun due => ?_)⟩
  · have due : silenceDue s k = true := (silenceDue_iff s k).2 ⟨⟨d, pending, kind⟩, c, silent, long⟩
    have same : pool (acceptBySilence k d s) = pool (silenceServed k s) := by
      unfold pool
      rw [acceptBySilence_queues]
    have numbers (j : CraneNo) : queueNumbers (acceptBySilence k d s) j = queueNumbers (silenceServed k s) j := by
      unfold queueNumbers
      rw [acceptBySilence_queues]
    refine ⟨acceptBySilence k d s, next_awake awoken (silenceExpires_of_due pending due), acceptBySilence_crane k d s,
      fun n active r mem number => silenceServed_abandoned active (same ▸ mem) number,
      (numbers k).trans (silenceServed_numbers k s), fun n => ?_, fun l q stands => ?_, fun distinct holds => ?_,
      acceptBySilence_kept k d s⟩
    · rw [same]
      exact pool_members_congr silenceServed_members n
    · rw [acceptBySilence_lanes] at stands
      exact silenceServed_requests stands
    · cases active : (s.cranes[k]).active with
      | none => exact acceptBySilence_of_inactive active
      | some n => exact acceptBySilence_of_active active distinct holds
  · obtain ⟨⟨d, pending, kind⟩, c, silent, long⟩ := (silenceDue_iff s k).1 due
    exact absurd (early d pending kind c silent) (not_lt.2 long)

end Sys2Proof.Machine


/-! PROOFS. The candidate search, and the release of the move it finds (R30 to R32, R88). -/

namespace Sys2Proof.Machine

variable {s t u : State} {k : CraneNo} {r : MoveRecord} {l : LaneNo} {ms p q : List MoveRecord}

/-! ### Requests of the search (R88) -/

theorem raiseRequest_state (k : CraneNo) (n : MoveNo) (s : State) :
    raiseRequest k n s = { s with lanes := (raiseRequest k n s).lanes } := by
  unfold raiseRequest
  split
  · rfl
  · split <;> rfl

theorem raiseRequest_lanes (k : CraneNo) (n : MoveNo) (s : State) (l : LaneNo) : (raiseRequest k n s).lanes[l] =
    { s.lanes[l] with request := ((raiseRequest k n s).lanes[l]).request } := by
  unfold raiseRequest
  split
  · rfl
  · split
    · rw [modLane_get]
      split
      · next here => rw [here]
      · rfl
    · rfl

/-- A request stands where one has been raised, or no other crane owns a lane of the two. -/
theorem raised_or_unowned (k : CraneNo) (n : MoveNo) (s : State) :
    HasStanding (raiseRequest k n s) k ∨ ∀ l, ¬OwnedByOther (raiseRequest k n s) k l := by
  by_cases standing : HasStanding s k
  · rw [raiseRequest_of_none n (.inl standing)]
    exact .inl standing
  · by_cases owned : ∃ l, OwnedByOther s k l
    · unfold raiseRequest
      rw [if_neg (by rwa [hasRequest_iff])]
      split
      · next l found =>
        refine .inl ⟨l, ⟨k, n⟩, ?_, rfl⟩
        rw [modLane_get, if_pos rfl]
      · next none =>
        obtain ⟨l, owned⟩ := owned
        have out := (find_lanes_eq_none_iff _).1 none l
        rw [(ownedByOther_iff s k l).2 owned] at out
        cases out
    · rw [raiseRequest_of_none n (.inr fun l h => owned ⟨l, h⟩)]
      exact .inr fun l h => owned ⟨l, h⟩

theorem raiseRequest_twice (k : CraneNo) (m n : MoveNo) (s : State) :
    raiseRequest k m (raiseRequest k n s) = raiseRequest k n s := raiseRequest_of_none m (raised_or_unowned k n s)

theorem homeLane_raiseRequest (k : CraneNo) (n : MoveNo) (s : State) (l : LaneNo) :
    HomeOpen (raiseRequest k n s) k l ↔ HomeOpen s k l := by
  unfold HomeOpen
  rw [raiseRequest_lanes, raiseRequest_state]

theorem request_of_raiseRequest (k : CraneNo) (n : MoveNo) (s : State) (l : LaneNo) :
    ((raiseRequest k n s).lanes[l]).request = (s.lanes[l]).request ∨ OwnedByOther s k l := by
  unfold raiseRequest
  split
  · exact .inl rfl
  · split
    · next m found =>
      rw [modLane_get]
      split
      · next here =>
        rw [here]
        have owned := List.find?_some found
        exact .inr ((ownedByOther_iff s k m).1 owned)
      · exact .inl rfl
    · exact .inl rfl

/-- A request raised on a lane of the other crane opens and closes no lane for this one (R85). -/
theorem laneFound_raiseRequest (k : CraneNo) (n : MoveNo) (s : State) :
    laneFound (raiseRequest k n s) k = laneFound s k := by
  have shared (l : LaneNo) : SharedOpen (raiseRequest k n s) k l ↔ SharedOpen s k l := by
    unfold SharedOpen SharedBy
    rcases request_of_raiseRequest k n s l with same | ⟨-, j, owner, other⟩
    · rw [same, raiseRequest_lanes]
    · rw [raiseRequest_lanes]
      dsimp only
      rw [owner]
      simp [other]
  have finds (l : LaneNo) : FindsLane (raiseRequest k n s) k l ↔ FindsLane s k l := by
    unfold FindsLane
    simp only [homeLane_raiseRequest, shared]
  refine Option.ext fun l => ?_
  rw [laneFound_eq_some_iff, laneFound_eq_some_iff, finds]

theorem clearance_raiseRequest (k : CraneNo) (n : MoveNo) (s : State) (r : MoveRecord) :
    clearance (raiseRequest k n s) k r = clearance s k r := by
  rw [raiseRequest_state]
  rfl

/-! ### What the search finds -/

/-- The search seeks a lane for the move. -/
def seeks (r : MoveRecord) : Bool := decide (r.state = .ready) && !laneSettled r

theorem seeks_iff (r : MoveRecord) : seeks r = true ↔ SeeksLane r := by
  unfold seeks SeeksLane
  rw [Bool.and_eq_true, decide_eq_true_eq, Bool.not_eq_true', laneSettled_eq_false_iff]

/-- The move passes the search (R31). -/
def passesSearch (s : State) (k : CraneNo) (r : MoveRecord) : Bool :=
  decide (r.state = .ready) && (laneSettled r || (laneFound s k).isSome) && clearance s k r

/-- The state once the search has taken the moves `ms` without choosing one: a request for the first that seeks a lane,
where none is found. -/
def asked (k : CraneNo) (ms : List MoveRecord) (s : State) : State :=
  if (laneFound s k).isSome then s else (ms.find? seeks).elim s fun r => raiseRequest k r.number s

theorem passesSearch_raiseRequest (k : CraneNo) (n : MoveNo) (s : State) (r : MoveRecord) :
    passesSearch (raiseRequest k n s) k r = passesSearch s k r := by
  unfold passesSearch
  rw [laneFound_raiseRequest, clearance_raiseRequest]

theorem asked_cons_of_not_seeks (out : seeks r = false) : asked k (r :: ms) s = asked k ms s := by
  unfold asked
  rw [List.find?_cons_of_neg (by rw [out]; decide)]

theorem asked_of_found (found : (laneFound s k).isSome = true) : asked k ms s = s := if_pos found

theorem asked_cons_of_seeks (seeking : seeks r = true) (unfound : laneFound s k = none) :
    asked k (r :: ms) s = raiseRequest k r.number s := by
  unfold asked
  rw [if_neg (by rw [unfound]; decide), List.find?_cons_of_pos seeking]
  rfl

theorem asked_raiseRequest (n : MoveNo) (unfound : laneFound s k = none) :
    asked k ms (raiseRequest k n s) = raiseRequest k n s := by
  unfold asked
  rw [laneFound_raiseRequest, unfound, if_neg (by decide)]
  cases ms.find? seeks with
  | none => rfl
  | some r => exact raiseRequest_twice ..

/-- The candidate of a move that passes: with the lane found where it seeks one. -/
def candidateOf (s : State) (k : CraneNo) (r : MoveRecord) : Candidate :=
  ⟨r.number, if laneSettled r then none else laneFound s k⟩

/-- A move that does not pass is passed over, with a request where it seeks a lane that is not found. -/
theorem searchMoves_cons_of_fails (fails : passesSearch s k r = false) : searchMoves k (r :: ms) s =
    if seeks r = true ∧ laneFound s k = none then searchMoves k ms (raiseRequest k r.number s) else searchMoves k ms s := by
  unfold passesSearch at fails
  conv_lhs => unfold searchMoves
  unfold seeks
  by_cases ready : r.state = .ready
  · rw [if_neg (not_not.2 ready), decide_eq_true ready, Bool.true_and]
    rw [decide_eq_true ready, Bool.true_and] at fails
    cases settled : laneSettled r with
    | true =>
      rw [settled, Bool.true_or, Bool.true_and] at fails
      rw [if_pos rfl, fails, if_neg Bool.false_ne_true, if_neg fun h => Bool.false_ne_true h.1]
    | false =>
      rw [if_neg Bool.false_ne_true]
      cases found : laneFound s k with
      | none => rw [if_pos ⟨rfl, rfl⟩]
      | some l =>
        rw [settled, found, Bool.false_or, Option.isSome_some, Bool.true_and] at fails
        rw [if_neg fun h => Option.some_ne_none l h.2]
        dsimp only
        rw [fails, if_neg Bool.false_ne_true]
  · rw [if_pos ready, decide_eq_false ready, Bool.false_and, if_neg fun h => Bool.false_ne_true h.1]

theorem searchMoves_cons_of_passes (passes : passesSearch s k r = true) :
    searchMoves k (r :: ms) s = (s, some (candidateOf s k r)) := by
  unfold passesSearch at passes
  rw [Bool.and_eq_true, Bool.and_eq_true, decide_eq_true_eq] at passes
  obtain ⟨⟨ready, lane⟩, clear⟩ := passes
  unfold searchMoves candidateOf
  rw [if_neg (not_not.2 ready), clear]
  cases settled : laneSettled r with
  | true => rfl
  | false =>
    rw [settled, Bool.false_or] at lane
    obtain ⟨l, found⟩ := Option.isSome_iff_exists.1 lane
    rw [found]
    rfl

theorem searchMoves_append (fails : ∀ x ∈ p, passesSearch s k x = false) :
    searchMoves k (p ++ q) s = searchMoves k q (asked k p s) := by
  induction p generalizing s with
  | nil =>
    have same : asked k [] s = s := by
      unfold asked
      split <;> rfl
    rw [same]
    rfl
  | cons x p ih =>
    have later (y : MoveRecord) (mem : y ∈ p) : passesSearch s k y = false := fails y (List.mem_cons_of_mem _ mem)
    rw [List.cons_append, searchMoves_cons_of_fails (fails x List.mem_cons_self)]
    by_cases seeking : seeks x = true ∧ laneFound s k = none
    · rw [if_pos seeking, ih fun y mem => (passesSearch_raiseRequest ..).trans (later y mem), asked_raiseRequest _ seeking.2,
        asked_cons_of_seeks seeking.1 seeking.2]
    · rw [if_neg seeking, ih later]
      by_cases found : (laneFound s k).isSome = true
      · rw [asked_of_found found, asked_of_found found]
      · have unfound : laneFound s k = none := by simpa using found
        rw [asked_cons_of_not_seeks (Bool.eq_false_iff.2 fun yes => seeking ⟨yes, unfound⟩)]

theorem asked_state (k : CraneNo) (ms : List MoveRecord) (s : State) :
    asked k ms s = { s with lanes := (asked k ms s).lanes } := by
  unfold asked
  split
  · rfl
  · cases ms.find? seeks with
    | none => rfl
    | some r => exact raiseRequest_state ..

theorem asked_lanes (l : LaneNo) : (asked k ms s).lanes[l] = { s.lanes[l] with
    request := ((asked k ms s).lanes[l]).request } := by
  unfold asked
  split
  · rfl
  · cases ms.find? seeks with
    | none => rfl
    | some r => exact raiseRequest_lanes ..

theorem asked_raised (k : CraneNo) (ms : List MoveRecord) (s : State) : RequestsRaised k ms s (asked k ms s) := by
  refine ⟨fun idle l => ?_, fun p r q l split before seeking unfound standing owned lowest m => ?_⟩
  · have same : asked k ms s = s := by
      unfold asked
      split
      · rfl
      · next none =>
        cases first : ms.find? seeks with
        | none => rfl
        | some r =>
          refine raiseRequest_of_none _ ?_
          rcases idle with still | ⟨l, found⟩ | standing | unowned
          · exact absurd ((seeks_iff r).1 (List.find?_some first)) (still r (List.mem_of_find?_eq_some first))
          · rw [(laneFound_eq_some_iff s k l).2 found] at none
            exact absurd rfl none
          · exact .inl standing
          · exact .inr unowned
    rw [same]
  · have first : ms.find? seeks = some r := by
      rw [split, List.find?_append, List.find?_eq_none.2 fun x mem => mt (seeks_iff x).1 (before x mem), Option.none_or]
      exact List.find?_cons_of_pos ((seeks_iff r).2 seeking)
    have raised : asked k ms s = modLane l (fun x => { x with request := some ⟨k, r.number⟩ }) s := by
      unfold asked
      rw [(laneFound_eq_none_iff s k).2 unfound, if_neg (by decide), first]
      exact raiseRequest_of_owned r.number standing owned lowest
    rw [raised, modLane_get]
    split <;> rfl

end Sys2Proof.Machine


/-! PROOFS. The move that the search finds, released (R32, R15, R86). -/

namespace Sys2Proof.Machine

variable {s t u x : State} {k : CraneNo} {r : MoveRecord} {l : LaneNo} {p q : List MoveRecord}

/-! ### The candidate -/

theorem laneFound_asked (k : CraneNo) (p : List MoveRecord) (s : State) : laneFound (asked k p s) k = laneFound s k := by
  unfold asked
  split
  · rfl
  · cases p.find? seeks with
    | none => rfl
    | some r => exact laneFound_raiseRequest ..

theorem passesSearch_asked (k : CraneNo) (p : List MoveRecord) (s : State) (r : MoveRecord) :
    passesSearch (asked k p s) k r = passesSearch s k r := by
  unfold passesSearch
  rw [laneFound_asked, asked_state]
  rfl

theorem searchAndRelease_of_passes (window : windowOf s k = p ++ r :: q) (fails : ∀ x ∈ p, passesSearch s k x = false)
    (passes : passesSearch s k r = true) : searchAndRelease k s = releaseMove k (candidateOf s k r) (asked k p s) := by
  have same : candidateOf (asked k p s) k r = candidateOf s k r := by
    unfold candidateOf
    rw [laneFound_asked]
  unfold searchAndRelease
  rw [window_eq, window, searchMoves_append fails,
    searchMoves_cons_of_passes ((passesSearch_asked ..).trans passes), same]

theorem searchAndRelease_of_none (fails : ∀ x ∈ windowOf s k, passesSearch s k x = false) :
    searchAndRelease k s = asked k (windowOf s k) s := by
  have searched := searchMoves_append (q := []) fails
  rw [List.append_nil] at searched
  unfold searchAndRelease
  rw [window_eq, searched]
  rfl

theorem passesSearch_iff (s : State) (k : CraneNo) (r : MoveRecord) : passesSearch s k r = true ↔
    r.state = .ready ∧ (r.kind ≠ .restow ∧ r.lane = none → ∃ l, FindsLane s k l) ∧ clearance s k r = true := by
  unfold passesSearch
  rw [Bool.and_eq_true, Bool.and_eq_true, decide_eq_true_eq, and_assoc, Bool.or_eq_true, Option.isSome_iff_exists,
    ← laneSettled_eq_false_iff]
  simp only [laneFound_eq_some_iff]
  cases laneSettled r <;> simp

/-! ### The slot found for it -/

/-- A record with the slot that its release gives it. -/
def slotted (s : State) (k : CraneNo) (r y : MoveRecord) : MoveRecord :=
  if y.number = r.number ∧ laneSettled r = false then { y with lane := laneFound s k, called := false } else y

theorem slotted_number (s : State) (k : CraneNo) (r y : MoveRecord) : (slotted s k r y).number = y.number := by
  unfold slotted
  split <;> rfl

theorem slotted_other {y : MoveRecord} (other : y.number ≠ r.number) : slotted s k r y = y := if_neg fun h => other h.1

theorem slotted_self (s : State) (k : CraneNo) (r : MoveRecord) : slotted s k r r = { r with
    lane := if r.kind ≠ .restow ∧ r.lane = none then laneFound s k else r.lane
    called := if r.kind ≠ .restow ∧ r.lane = none then false else r.called } := by
  unfold slotted
  simp only [laneSettled_eq_false_iff, true_and]
  split <;> rfl

/-- The state with the candidate's slot reserved. -/
def slotFor (k : CraneNo) (r : MoveRecord) (p : List MoveRecord) (s : State) : State :=
  reserveFound k (candidateOf s k r) (asked k p s)

theorem slotFor_of_settled (settled : laneSettled r = true) : slotFor k r p s = asked k p s := by
  unfold slotFor candidateOf
  rw [settled]
  rfl

theorem slotFor_of_found (seeking : laneSettled r = false) (found : laneFound s k = some l) :
    slotFor k r p s = reserve k r.number l s := by
  unfold slotFor candidateOf
  rw [seeking, found, asked_of_found (by rw [found]; rfl)]
  rfl

section
variable (passes : passesSearch s k r = true)
include passes

theorem slotFor_cases : (laneSettled r = true ∧ slotFor k r p s = asked k p s) ∨
    ∃ l, laneSettled r = false ∧ FindsLane s k l ∧ slotFor k r p s = reserve k r.number l s := by
  cases settled : laneSettled r with
  | true => exact .inl ⟨rfl, slotFor_of_settled settled⟩
  | false =>
    obtain ⟨l, found⟩ := ((passesSearch_iff s k r).1 passes).2.1 ((laneSettled_eq_false_iff r).1 settled)
    exact .inr ⟨l, rfl, found, slotFor_of_found settled ((laneFound_eq_some_iff s k l).2 found)⟩

theorem slotFor_queues (j : CraneNo) : (slotFor k r p s).queues[j] = (s.queues[j]).map (slotted s k r) := by
  rcases slotFor_cases (p := p) passes with ⟨settled, eq⟩ | ⟨l, seeking, finds, eq⟩
  · rw [eq, asked_state]
    refine ((List.map_congr_left fun y _ => ?_).trans (List.map_id' _)).symm
    exact if_neg fun h => by rw [settled] at h; cases h.2
  · rw [eq, reserve_eq k r.number l (FindsLane.free finds), modMove, mapMoves_get]
    refine List.map_congr_left fun y _ => ?_
    unfold slotted
    rw [(laneFound_eq_some_iff s k l).2 finds]
    simp only [seeking, and_true]

theorem slotFor_state : slotFor k r p s = { s with
    lanes := (slotFor k r p s).lanes, queues := (slotFor k r p s).queues } := by
  rcases slotFor_cases (p := p) passes with ⟨-, eq⟩ | ⟨l, -, finds, eq⟩
  · rw [eq]
    conv_lhs => rw [asked_state]
    rw [asked_state]
  · rw [eq, reserve_eq k r.number l (FindsLane.free finds)]
    rfl

end

/-! ### The release -/

/-- The record goes to ACTIVE or to STAGED. -/
def releasedTo (k : CraneNo) (y : MoveRecord) (x : State) : State :=
  if (x.cranes[k]).active.isNone then toActive k y x else toStaged k y x

theorem releaseMove_of_found {c : Candidate} (found : findIn (reserveFound k c x) k c.number = some r) :
    releaseMove k c x = queueChanged k (testAgreement k (releasedTo k r (reserveFound k c x))) := by
  unfold releaseMove
  dsimp only
  rw [found]
  rfl

/-- A record made STAGED. -/
def stagedRecord (y : MoveRecord) : MoveRecord := { y with state := .staged }

/-- A test of agreement and the lashing tests keep a busy record, the crane but for its mark, the lanes and the queue's
order; the mark agrees at the end. -/
theorem agreed_and_told (k : CraneNo) (x : State) :
    (queueChanged k (testAgreement k x)).lanes = x.lanes ∧
    queueNumbers (queueChanged k (testAgreement k x)) k = queueNumbers x k ∧
    (queueChanged k (testAgreement k x)).cranes[k] = { x.cranes[k] with
      jobMark := agreement (queueChanged k (testAgreement k x)) k } ∧
    ∀ n y, y.busy = true → findIn x k n = some y → findIn (queueChanged k (testAgreement k x)) k n = some y := by
  have told := queueChanged_lashed (worked_deckWork (testAgreement k x)) k
  obtain ⟨f, queues, follow⟩ := told.records
  have number (y : MoveRecord) : (f y).number = y.number := (follow y).number
  have numbers (j : CraneNo) : queueNumbers (queueChanged k (testAgreement k x)) j = queueNumbers x j :=
    queueNumbers_map (s := testAgreement k x) (queues j) number
  have crane : (queueChanged k (testAgreement k x)).cranes[k] = { x.cranes[k] with jobMark := agreement x k } := by
    rw [told.cranes]
    exact modCrane_same ..
  have agreed : agreement (queueChanged k (testAgreement k x)) k = agreement x k := by
    refine agreement_congr numbers ?_ ?_ ?_ <;> rw [crane]
  refine ⟨told.lanes, numbers k, by rw [agreed, crane], fun n y busy found => ?_⟩
  rw [findIn_of_queue (queues k) number, show findIn (testAgreement k x) k n = findIn x k n from rfl, found, Option.map_some,
    (follow y).busy busy]

theorem without_slotted (s : State) (k : CraneNo) (r : MoveRecord) (q : List MoveRecord) :
    without r.number (q.map (slotted s k r)) = without r.number q := by
  unfold without
  rw [List.filter_map]
  refine .trans (List.map_congr_left fun y mem => ?_) (List.map_id' _ |>.trans ?_)
  · refine slotted_other ?_
    have kept := List.of_mem_filter mem
    rw [Function.comp_apply, slotted_number] at kept
    exact of_decide_eq_true kept
  · congr 1
    funext y
    rw [Function.comp_apply, slotted_number]

theorem findIn_of_perm {y : MoveRecord} {rest : List MoveRecord} (queue : (x.queues[k]).Perm (y :: rest))
    (out : ∀ z ∈ rest, z.number ≠ y.number) : findIn x k y.number = some y :=
  findIn_of_unique (queue.mem_iff.2 List.mem_cons_self) fun z mem same => by
    rcases List.mem_cons.1 (queue.mem_iff.1 mem) with here | later
    · exact here
    · exact absurd same (out z later)

section
variable (passes : passesSearch s k r = true) (mem : r ∈ s.queues[k]) (distinct : ((s.queues[k]).map (·.number)).Nodup)
include passes mem distinct

theorem findIn_slotFor : findIn (slotFor k r p s) k r.number = some (slotted s k r r) := by
  have alone : findIn s k r.number = some r := findIn_of_unique mem fun y here same =>
    List.inj_on_of_nodup_map distinct here mem same
  rw [findIn_of_queue (slotFor_queues passes k) (slotted_number s k r), alone]
  rfl

theorem released_eq (window : windowOf s k = p ++ r :: q) (fails : ∀ y ∈ p, passesSearch s k y = false) :
    searchAndRelease k s =
      queueChanged k (testAgreement k (releasedTo k (slotted s k r r) (slotFor k r p s))) := by
  rw [searchAndRelease_of_passes window fails passes]
  exact releaseMove_of_found (findIn_slotFor passes mem distinct)

omit mem distinct in
theorem without_slotFor : without (slotted s k r r).number (slotFor k r p s).queues[k] = without r.number s.queues[k] := by
  rw [slotted_number, slotFor_queues passes, without_slotted]

omit mem distinct in
theorem released_active (inactive : (s.cranes[k]).active = none) :
    releasedTo k (slotted s k r r) (slotFor k r p s) = toActive k (slotted s k r r) (slotFor k r p s) := by
  have crane : (slotFor k r p s).cranes = s.cranes := by rw [slotFor_state passes]
  unfold releasedTo
  rw [crane, inactive]
  rfl

omit mem distinct in
theorem released_staged (active : (s.cranes[k]).active.isSome = true) :
    releasedTo k (slotted s k r r) (slotFor k r p s) = toStaged k (slotted s k r r) (slotFor k r p s) := by
  have crane : (slotFor k r p s).cranes = s.cranes := by rw [slotFor_state passes]
  unfold releasedTo
  rw [crane]
  exact if_neg (by rw [Option.isNone_iff_eq_none]; exact Option.isSome_iff_ne_none.1 active)

omit mem distinct in
theorem activate_slotFor (y : MoveRecord) : activate (slotFor k r p s) k y = activate s k y := by
  unfold activate overlapAtActivation
  rw [slotFor_state passes]

omit passes mem distinct in
theorem toActive_queue (y : MoveRecord) (x : State) :
    (toActive k y x).queues[k] = activate x k y :: without y.number x.queues[k] := by
  unfold toActive
  rw [modCrane_queues, setQueue_get, if_pos rfl]

omit passes mem distinct in
theorem toStaged_queue (y : MoveRecord) (x : State) :
    (toStaged k y x).queues[k] = placeBehindActive (stagedRecord y) (without y.number x.queues[k]) := by
  unfold toStaged
  rw [modCrane_queues, setQueue_get, if_pos rfl]
  rfl

omit passes mem distinct in
theorem number_ne_of_without {n : MoveNo} {q : List MoveRecord} {z : MoveRecord} (mem : z ∈ without n q) : z.number ≠ n := by
  have kept := List.of_mem_filter mem
  simpa using kept

omit passes mem distinct in
theorem toActive_crane (y : MoveRecord) (x : State) : (toActive k y x).cranes[k] = { x.cranes[k] with
    active := some y.number, deferStart := none, waitMark := none } := by
  unfold toActive
  rw [modCrane_same, setQueue_cranes]

omit passes mem distinct in
theorem toStaged_crane (y : MoveRecord) (x : State) :
    (toStaged k y x).cranes[k] = { x.cranes[k] with staged := some y.number } := by
  unfold toStaged
  rw [modCrane_same, setQueue_cranes]

omit mem distinct in
theorem released_to_active (inactive : (s.cranes[k]).active = none) :
    queueNumbers (releasedTo k (slotted s k r r) (slotFor k r p s)) k =
      r.number :: (without r.number s.queues[k]).map (·.number) ∧
    findIn (releasedTo k (slotted s k r r) (slotFor k r p s)) k r.number = some (activate s k (slotted s k r r)) ∧
    (releasedTo k (slotted s k r r) (slotFor k r p s)).cranes[k] = { s.cranes[k] with
      active := some r.number, deferStart := none, waitMark := none } := by
  have queue := toActive_queue (k := k) (slotted s k r r) (slotFor k r p s)
  rw [activate_slotFor passes, without_slotFor passes] at queue
  have number : (slotted s k r r).number = r.number := slotted_number ..
  have crane : (slotFor k r p s).cranes = s.cranes := by rw [slotFor_state passes]
  rw [released_active passes inactive]
  refine ⟨?_, ?_, ?_⟩
  · unfold queueNumbers
    rw [queue, List.map_cons]
    exact congrArg (· :: _) number
  · have here : (activate s k (slotted s k r r)).number = r.number := number
    rw [← here]
    exact findIn_of_perm (.of_eq queue) fun z later => here ▸ number_ne_of_without later
  · rw [toActive_crane, number, crane]

omit mem distinct in
theorem released_to_staged (active : (s.cranes[k]).active.isSome = true) :
    queueNumbers (releasedTo k (slotted s k r r) (slotFor k r p s)) k =
      ((without r.number s.queues[k]).takeWhile fun y => decide (y.state = .active)).map (·.number) ++
        r.number :: ((without r.number s.queues[k]).dropWhile fun y => decide (y.state = .active)).map (·.number) ∧
    findIn (releasedTo k (slotted s k r r) (slotFor k r p s)) k r.number =
      some (stagedRecord (slotted s k r r)) ∧
    (releasedTo k (slotted s k r r) (slotFor k r p s)).cranes[k] = { s.cranes[k] with staged := some r.number } := by
  have queue := toStaged_queue (k := k) (slotted s k r r) (slotFor k r p s)
  rw [without_slotFor passes] at queue
  have number : (slotted s k r r).number = r.number := slotted_number ..
  have crane : (slotFor k r p s).cranes = s.cranes := by rw [slotFor_state passes]
  rw [released_staged passes active]
  refine ⟨?_, ?_, ?_⟩
  · unfold queueNumbers
    rw [queue, placeBehindActive, List.map_append, List.map_cons]
    exact congrArg (fun n => _ ++ n :: _) number
  · have here : (stagedRecord (slotted s k r r)).number = r.number := number
    rw [← here]
    exact findIn_of_perm ((List.Perm.of_eq queue).trans (placeBehindActive_perm ..)) fun z later =>
      here ▸ number_ne_of_without later
  · rw [toStaged_crane, number, crane]

end

/-! ### The evaluation (R28, R32, R56) -/

theorem releaseCondition_withoutStale (k : CraneNo) (s : State) :
    releaseCondition (withoutStale k s) k = releaseCondition s k := rfl

theorem evaluateOnce_of_open (opened : releaseCondition s k = true) : evaluateOnce k s =
    if (s.cranes[k]).active = none ∧ ((searchAndRelease k (withoutStale k s)).cranes[k]).active.isSome then
      searchAndRelease k (searchAndRelease k (withoutStale k s))
    else searchAndRelease k (withoutStale k s) := by
  rw [evaluateOnce_eq]
  unfold releaseWork
  rw [if_pos ((releaseCondition_withoutStale k s).trans opened)]
  dsimp only
  rw [show (withoutStale k s).cranes = s.cranes from rfl]
  simp only [Option.isNone_iff_eq_none]

theorem evaluate_of_still (still : (s.cranes[k]).active.isSome = true ∨ ((evaluateOnce k s).cranes[k]).active = none) :
    evaluate k s = evaluateOnce k s := by
  refine if_neg fun ⟨empty, filled⟩ => ?_
  rcases still with active | inactive
  · rw [Option.isNone_iff_eq_none.1 empty] at active
    cases active
  · rw [inactive] at filled
    cases filled

theorem evaluate_callChecked (inactive : (s.cranes[k]).active = none)
    (filled : ((evaluateOnce k s).cranes[k]).active.isSome = true) :
    CallChecked k (evaluateOnce k s) (evaluate k s) := by
  have checked : evaluate k s = checkAfterActivation k (evaluateOnce k s) :=
    if_pos ⟨Option.isNone_iff_eq_none.2 inactive, filled⟩
  rw [checked]
  generalize evaluateOnce k s = u at filled
  obtain ⟨n, active⟩ := Option.isSome_iff_exists.1 filled
  have kept : ((checkMoves k u).cranes[k]).active = some n := (QReach.crane (checkMoves_quiet k u) k).active n active
  have once : evaluate k (checkMoves k u) = evaluateOnce k (checkMoves k u) :=
    evaluate_of_still (.inl (by rw [kept]; rfl))
  refine callChecked_of_ite ?_
  rw [once]
  rfl

/-! ### The obligation -/

/-- What the release makes of the lanes. -/
theorem slotFor_lanes_of_needs (needs : r.kind ≠ .restow ∧ r.lane = none) (finds : FindsLane s k l) :
    (slotFor k r p s).lanes = reservedLanes k r.number l s := by
  rw [slotFor_of_found ((laneSettled_eq_false_iff r).2 needs) ((laneFound_eq_some_iff s k l).2 finds), reserve_lanes]

theorem slotFor_lanes_of_settled (settled : ¬(r.kind ≠ .restow ∧ r.lane = none)) :
    (slotFor k r p s).lanes = (asked k p s).lanes := by
  rw [slotFor_of_settled]
  rw [← laneSettled_eq_false_iff] at settled
  simpa using settled

theorem requestsRaised_congr (lanes : t.lanes = u.lanes) (h : RequestsRaised k p s u) : RequestsRaised k p s t := by
  unfold RequestsRaised at h ⊢
  rw [lanes]
  exact h

/-- Settles O14: the search over the moves that fail, the release of the first that passes, and the evaluation that makes
both. -/
theorem candidateSearchReleasesTheFirst : Obligations.CandidateSearchReleasesTheFirst := by
  intro s k needs passes t
  have fails_iff (x : MoveRecord) : passesSearch s k x = false ↔ ¬passes x := by
    rw [← Bool.not_eq_true, passesSearch_iff]
  refine ⟨laneFound_eq_some_iff s k, fun none => ?_, fun p r q window fails pass distinct => ?_, fun opened => ?_, ?_⟩
  · have searched : t = asked k (windowOf s k) s := searchAndRelease_of_none fun x mem => (fails_iff x).2 (none x mem)
    rw [searched]
    exact ⟨asked_state .., asked_raised .., fun l => asked_lanes l⟩
  · intro rest lane called
    have found : passesSearch s k r = true := (passesSearch_iff s k r).2 pass
    have mem : r ∈ s.queues[k] := (List.dropWhile_sublist _).mem (List.mem_of_mem_take
      (show r ∈ windowOf s k by rw [window]; exact List.mem_append_right _ List.mem_cons_self))
    have eq := released_eq found mem distinct window fun x mem => (fails_iff x).2 (fails x mem)
    obtain ⟨lanes, numbers, crane, kept⟩ :=
      agreed_and_told k (releasedTo k (slotted s k r r) (slotFor k r p s))
    have moved : (releasedTo k (slotted s k r r) (slotFor k r p s)).lanes = (slotFor k r p s).lanes := by
      unfold releasedTo
      split <;> simp only [toActive_lanes, toStaged_lanes]
    rw [← eq] at lanes numbers crane kept
    replace lanes := lanes.trans moved
    refine ⟨fun l seeking finds => ?_, fun settled => ?_, ?_, fun inactive => ?_, fun active => ?_⟩
    · rw [show t.lanes = reservedLanes k r.number l s from lanes.trans (slotFor_lanes_of_needs seeking finds)]
      refine ⟨reservedLanes_slot .., fun shared free => ?_, fun m => ⟨reservedLanes_rest .., reservedLanes_other⟩⟩
      rw [FindsLane.owner finds, if_pos free, if_neg (not_home_of_sharedBy shared k)]
    · have same := lanes.trans (slotFor_lanes_of_settled settled)
      refine ⟨requestsRaised_congr same (asked_raised k p s), fun l => ?_⟩
      rw [show t.lanes = (asked k p s).lanes from same]
      exact asked_lanes l
    · rw [show t.cranes[k] = _ from crane]
    · obtain ⟨order, record, context⟩ := released_to_active (p := p) found inactive
      refine ⟨numbers.trans order, ?_, ?_⟩
      · refine (kept r.number _ ?_ record).trans (congrArg some ?_)
        · rfl
        · rw [slotted_self]
          rfl
      · rw [context] at crane
        refine Eq.trans crane ?_
        rw [show t.cranes[k] = _ from crane]
    · obtain ⟨order, record, context⟩ := released_to_staged (p := p) found active
      refine ⟨numbers.trans order, ?_, ?_⟩
      · refine (kept r.number _ ?_ record).trans (congrArg some ?_)
        · rfl
        · rw [slotted_self]
          rfl
      · rw [context] at crane
        refine Eq.trans crane ?_
        rw [show t.cranes[k] = _ from crane]
  · exact evaluateOnce_of_open opened
  · exact ⟨evaluate_of_still, evaluate_callChecked⟩

end Sys2Proof.Machine


/-! PROOFS. What a visit sends (R39, R97, R115, R142 to R145). -/

namespace Sys2Proof.Machine

variable {s t : State} {k : CraneNo} {st : Station}

/-! ### Bodies (TABLE 55) -/

theorem joblistEntry_eq (r : MoveRecord) : joblistEntry r = [byte (r.number.toNat / 256), byte r.number.toNat, r.kind.code,
    (r.lane.map fun l => byte l.val).getD 0xFF] ++ r.legs.flatMap Leg.bytes := by
  unfold joblistEntry
  cases r.lane <;> rfl

theorem joblistBody_of_full (full : (s.cranes[k]).jobMark = .full) : joblistBody s k =
    (((s.cranes[k]).active.bind (findIn s k)).map joblistEntry).getD [] ++
      (((s.cranes[k]).staged.bind (findIn s k)).map joblistEntry).getD [] := by
  have one (n : Option MoveNo) : (n.toList.filterMap (findIn s k)).flatMap joblistEntry =
      ((n.bind (findIn s k)).map joblistEntry).getD [] := by
    cases n with
    | none => rfl
    | some n =>
      cases found : findIn s k n with
      | none => simp [found]
      | some r => simp [found]
  unfold joblistBody
  dsimp only
  rw [if_pos full, List.filterMap_append, List.flatMap_append, one, one]

theorem joblistBody_of_empty (empty : (s.cranes[k]).jobMark = .empty) : joblistBody s k = [] :=
  if_neg (by rw [empty]; decide)

theorem areaBays_sorted (s : State) (a : AreaNo) : (areaBays s a).Pairwise (· ≤ ·) := List.pairwise_insertionSort ..

theorem areaBays_perm (s : State) (a : AreaNo) : (areaBays s a).Perm
    (s.bays.toList.filterMap fun x => (x.filter fun y => decide (y.area = a)).map (·.bay)) := by
  have same : (fun x : Option BayRow => x.bind fun y => if y.area = a then some y.bay else none) =
      fun x => (x.filter fun y => decide (y.area = a)).map (·.bay) := by
    funext x
    cases x with
    | none => rfl
    | some y =>
      by_cases here : y.area = a <;> simp [Option.filter, here]
  rw [← same]
  exact List.perm_insertionSort ..

theorem gangJobBody_of_job {g : GangNo} {j : Job} (mark : (s.gangs[g]).mark = .job) (job : (s.gangs[g]).state.job = some j) :
    gangJobBody s g = [j.kind.code, byte j.area.val] ++ (areaBays s j.area).map byte := by
  unfold gangJobBody
  rw [mark, job]

theorem gangJobBody_of_cancel {g : GangNo} (mark : (s.gangs[g]).mark = .cancel) : gangJobBody s g = [0] := by
  unfold gangJobBody
  rw [mark]

theorem jobKind_code (x : JobKind) : x.code = if x = .unlash then 1 else 2 := by cases x <;> rfl

/-- The byte of a slot's signal (R97). -/
theorem signal_code (x : Lane) : x.signal.code = if x.use = .unused then 0 else x.slot.signal.code := by
  unfold Lane.signal
  split <;> rfl

/-! ### A visit under way -/

/-- The state in a visit to `st` that has sent `sent`. -/
def visiting (st : Station) (next : Nat) (sequence : Byte) (forward sent : List Telegram) (s : State) : State :=
  { s with field := { s.field with
      nextSlot := next, sequence := sequence, forward := forward
      visit := some ⟨st, .sending, sent, fieldSettings s.params⟩ } }

section
variable {next : Nat} {q : Byte} {fw ts : List Telegram}

theorem putOnLine_visiting (x : Telegram) :
    putOnLine x (visiting st next q fw ts s) = visiting st next q fw (ts ++ [x]) s := rfl

theorem putOnLine_foldl (xs : List Telegram) :
    xs.foldl (fun s t => putOnLine t s) (visiting st next q fw ts s) = visiting st next q fw (ts ++ xs) s := by
  induction xs generalizing ts with
  | nil => rw [List.append_nil]; rfl
  | cons x xs ih => rw [List.foldl_cons, putOnLine_visiting, ih, List.append_assoc]; rfl

theorem sendField_visiting (kind : Byte) (body : List Byte) : sendField st kind body (visiting st next q fw ts s) =
    visiting st next (q + 1) fw (ts ++ [⟨st.mark, kind, q, body⟩]) s := rfl

/-! ### Pending output (R144) -/

/-- Telegrams that the part builds, with the field sequence numbers in turn from `q`. -/
def numbered (st : Station) (q : Byte) (out : List (Byte × List Byte)) : List Telegram :=
  out.zipIdx.map fun (o, d) => ⟨st.mark, o.1, q + byte d, o.2⟩

/-- The WAIT or GATE_LIGHT mark of the station cleared. -/
def marksSent (st : Station) (s : State) : State :=
  { s with
    cranes := match st with
      | .crane k => s.cranes.set k { s.cranes[k] with waitMark := none }
      | .gang _ | .gate _ => s.cranes
    gateMarks := match st with
      | .gate u => s.gateMarks.set u false
      | .crane _ | .gang _ => s.gateMarks }

theorem cranes_set_self {x : Crane} (same : x = s.cranes[k]) : s.cranes.set k x = s.cranes := by
  refine Vector.ext_get fun j => ?_
  rw [Vector.get_set, same]
  split
  · next here => rw [here]
  · rfl

theorem gateMarks_set_self {u : GateNo} {b : Bool} (same : s.gateMarks[u] = b) : s.gateMarks.set u b = s.gateMarks := by
  refine Vector.ext_get fun j => ?_
  rw [Vector.get_set, ← same]
  split
  · next here => rw [here]
  · rfl

theorem marksSent_of_no_wait (unmarked : (s.cranes[k]).waitMark = none) : marksSent (.crane k) s = s := by
  unfold marksSent
  dsimp only
  rw [cranes_set_self]
  rw [← unmarked]

theorem marksSent_of_no_light {u : GateNo} (unmarked : s.gateMarks[u] = false) : marksSent (.gate u) s = s := by
  unfold marksSent
  dsimp only
  rw [gateMarks_set_self unmarked]

theorem numbered_one (a : Byte × List Byte) : numbered st q [a] = [⟨st.mark, a.1, q, a.2⟩] := by
  simp [numbered, byte]

theorem numbered_two (a b : Byte × List Byte) :
    numbered st q [a, b] = [⟨st.mark, a.1, q, a.2⟩, ⟨st.mark, b.1, q + 1, b.2⟩] := by
  simp [numbered, byte]

/-- The JOBLIST, where its mark is set. -/
def jobOutput (s : State) (k : CraneNo) : List (Byte × List Byte) :=
  if (s.cranes[k]).jobMark = .clear then [] else [(0x41, joblistBody s k)]

/-- The WAIT, where its mark is set. -/
def waitOutput (s : State) (k : CraneNo) : List (Byte × List Byte) :=
  ((s.cranes[k]).waitMark.map fun r => (0x42, [r.code])).toList

theorem sendPending_crane (k : CraneNo) (s : State) : sendPending (.crane k) (visiting (.crane k) next q fw ts s) =
    visiting (.crane k) next (q + byte (jobOutput s k ++ waitOutput s k).length) fw
      (ts ++ numbered (.crane k) q (jobOutput s k ++ waitOutput s k)) (marksSent (.crane k) s) := by
  have same : (visiting (.crane k) next q fw ts s).cranes = s.cranes := rfl
  have body : joblistBody (visiting (.crane k) next q fw ts s) k = joblistBody s k := rfl
  unfold sendPending jobOutput waitOutput
  dsimp only
  rw [same, body]
  by_cases clear : (s.cranes[k]).jobMark = .clear
  · rw [if_pos clear, if_pos clear, same]
    cases wait : (s.cranes[k]).waitMark with
    | none =>
      rw [marksSent_of_no_wait wait]
      simp [numbered, byte]
    | some r =>
      rw [Option.map_some, Option.toList_some, List.nil_append, numbered_one]
      rfl
  · rw [if_neg clear, if_neg clear, sendField_visiting, show (visiting (.crane k) next (q + 1) fw
      (ts ++ [⟨(Station.crane k).mark, Config.kJoblist, q, joblistBody s k⟩]) s).cranes = s.cranes from rfl]
    cases wait : (s.cranes[k]).waitMark with
    | none =>
      rw [marksSent_of_no_wait wait, Option.map_none, Option.toList_none, List.append_nil, numbered_one]
      rfl
    | some r =>
      rw [Option.map_some, Option.toList_some, List.singleton_append, numbered_two]
      dsimp only
      rw [sendField_visiting, List.append_assoc, List.length_cons, List.length_singleton, BitVec.add_assoc]
      rfl

theorem sendPending_gang (g : GangNo) (s : State) : sendPending (.gang g) (visiting (.gang g) next q fw ts s) =
    visiting (.gang g) next (q + byte (pendingOutput s (.gang g)).length) fw
      (ts ++ numbered (.gang g) q (pendingOutput s (.gang g))) s := by
  have same : (visiting (.gang g) next q fw ts s).gangs = s.gangs := rfl
  unfold sendPending pendingOutput
  dsimp only
  rw [same]
  by_cases clear : (s.gangs[g]).mark = .clear
  · rw [if_pos clear, if_pos clear]
    simp [numbered, byte]
  · rw [if_neg clear, if_neg clear, numbered_one]
    rfl

theorem sendPending_gate (u : GateNo) (s : State) : sendPending (.gate u) (visiting (.gate u) next q fw ts s) =
    visiting (.gate u) next (q + byte (pendingOutput s (.gate u)).length) fw
      (ts ++ numbered (.gate u) q (pendingOutput s (.gate u))) (marksSent (.gate u) s) := by
  have same : (visiting (.gate u) next q fw ts s).gateMarks = s.gateMarks := rfl
  unfold sendPending pendingOutput
  dsimp only
  rw [same]
  cases marked : s.gateMarks[u] with
  | false =>
    rw [if_neg Bool.false_ne_true, if_neg Bool.false_ne_true, marksSent_of_no_light marked]
    simp [numbered, byte]
  | true =>
    rw [if_pos rfl, if_pos rfl, numbered_one]
    rfl

theorem sendPending_visiting (st : Station) (s : State) : sendPending st (visiting st next q fw ts s) =
    visiting st next (q + byte (pendingOutput s st).length) fw (ts ++ numbered st q (pendingOutput s st))
      (marksSent st s) := by
  cases st with
  | crane k => exact sendPending_crane k s
  | gang g => exact sendPending_gang g s
  | gate u => exact sendPending_gate u s

end

/-! ### Forward entries (R145) -/

theorem takeEntries_spec (m : Byte) (n : Nat) (fw : List Telegram) :
    (takeEntries m n fw).1 = (fw.filter fun x => decide (x.mark = m)).take n ∧
    (takeEntries m n fw).2.Sublist fw ∧
    ((takeEntries m n fw).2.filter fun x => decide (x.mark ≠ m)) = fw.filter (fun x => decide (x.mark ≠ m)) ∧
    ((takeEntries m n fw).2.filter fun x => decide (x.mark = m)) = (fw.filter fun x => decide (x.mark = m)).drop n := by
  induction fw generalizing n with
  | nil => cases n <;> simp [takeEntries]
  | cons x fw ih =>
    cases n with
    | zero => simp [takeEntries]
    | succ n =>
      unfold takeEntries
      by_cases here : x.mark = m
      · obtain ⟨go, sub, others, mine⟩ := ih n
        rw [if_pos here]
        exact ⟨by simp [here, go], sub.cons x, by simpa [here] using others, by simp [here, mine]⟩
      · obtain ⟨go, sub, others, mine⟩ := ih (n + 1)
        rw [if_neg here]
        exact ⟨by simp [here, go], sub.cons_cons x, by simpa [here] using others, by simp [here, mine]⟩

/-- The forward entries that a visit sends, and those that stay. -/
def forwarded (st : Station) (s : State) : List Telegram × List Telegram :=
  if stationState s st = .silent then ([], s.field.forward) else takeEntries st.mark 2 s.field.forward

theorem stationState_visiting {next : Nat} {q : Byte} {fw ts : List Telegram} (s : State) :
    stationState (visiting st next q fw ts (marksSent st s)) st = stationState s st := rfl

theorem sendForwards_visiting (st : Station) (next : Nat) (q : Byte) (ts : List Telegram) (s : State) :
    sendForwards st (visiting st next q s.field.forward ts (marksSent st s)) =
      visiting st next q (forwarded st s).2 (ts ++ (forwarded st s).1) (marksSent st s) := by
  unfold sendForwards forwarded
  rw [stationState_visiting]
  by_cases silent : stationState s st = .silent
  · rw [if_pos silent, if_pos silent, List.append_nil]
  · rw [if_neg silent, if_neg silent]
    exact putOnLine_foldl (takeEntries st.mark 2 s.field.forward).1

/-! ### The visit (R142, R143) -/

theorem startVisit_eq (i : Nat) (st : Station) (s : State) : startVisit i st s =
    visiting st ((i + 1) % s.field.plan.length) (s.field.sequence + byte ((pendingOutput s st).length + 1))
      (forwarded st s).2
      (numbered st s.field.sequence (pendingOutput s st) ++ (forwarded st s).1 ++
        [⟨st.mark, 0x40, s.field.sequence + byte (pendingOutput s st).length, [pollSerial s st]⟩]) (marksSent st s) := by
  have begun : modField (fun f => { f with
      nextSlot := (i + 1) % f.plan.length, visit := some ⟨st, .sending, [], fieldSettings s.params⟩ }) s =
      visiting st ((i + 1) % s.field.plan.length) s.field.sequence s.field.forward [] s := rfl
  have serial (next : Nat) (q : Byte) (fw ts : List Telegram) :
      pollSerial (visiting st next q fw ts (marksSent st s)) st = pollSerial s st := by
    cases st with
    | crane k =>
      show (((s.cranes.set k { s.cranes[k] with waitMark := none })[k]).serial).getD 0 = _
      rw [Vector.get_set, if_pos rfl]
      rfl
    | gang g => rfl
    | gate u => rfl
  have advance : s.field.sequence + byte (pendingOutput s st).length + 1 =
      s.field.sequence + byte ((pendingOutput s st).length + 1) := by
    unfold byte
    rw [BitVec.add_assoc, ← BitVec.ofNat_add_ofNat]
    rfl
  unfold startVisit
  rw [begun, sendPending_visiting, sendForwards_visiting]
  dsimp only
  rw [serial, sendField_visiting, advance]
  rfl

theorem visitable_of_passedOver {m : Byte} (passed : stationOfMark m = none ∨
    ∃ k, stationOfMark m = some (.crane k) ∧ (s.cranes[k]).mode = .absent) : visitable s m = none := by
  unfold visitable
  rcases passed with unnamed | ⟨k, named, absent⟩
  · rw [unnamed]
  · rw [named]
    refine if_neg fun present => ?_
    simp only [inRoster, absent] at present
    exact absurd present (by decide)

theorem visitable_of_named {m : Byte} (named : stationOfMark m = some st)
    (due : ¬(stationOfMark m = none ∨ ∃ k, stationOfMark m = some (.crane k) ∧ (s.cranes[k]).mode = .absent)) :
    visitable s m = some st := by
  unfold visitable
  rw [named]
  cases st with
  | crane k =>
    refine if_pos ?_
    have present : (s.cranes[k]).mode ≠ .absent := fun absent => due (.inr ⟨k, named, absent⟩)
    simpa [inRoster] using present
  | gang g => rfl
  | gate u => rfl

/-- The plan slot at distance `i` from the next slot. -/
def slotAt (s : State) (i : Nat) : Byte :=
  s.field.plan.getD ((s.field.nextSlot + i) % s.field.plan.length) 0

theorem nextVisit_eq (s : State) : nextVisit s = (List.range s.field.plan.length).findSome? fun i =>
    (visitable s (slotAt s i)).map fun st => ((s.field.nextSlot + i) % s.field.plan.length, st) := by
  unfold nextVisit planOrder
  dsimp only
  rw [List.findSome?_map]
  rfl

theorem nextVisit_of_none (passed : ∀ i < s.field.plan.length, visitable s (slotAt s i) = none) : nextVisit s = none := by
  rw [nextVisit_eq]
  refine List.findSome?_eq_none_iff.2 fun i mem => ?_
  rw [passed i (List.mem_range.1 mem)]
  rfl

theorem nextVisit_of_first {i : Nat} (here : i < s.field.plan.length) (before : ∀ j < i, visitable s (slotAt s j) = none)
    (due : visitable s (slotAt s i) = some st) :
    nextVisit s = some ((s.field.nextSlot + i) % s.field.plan.length, st) := by
  rw [nextVisit_eq, List.findSome?_eq_some_iff]
  refine ⟨List.range i, i, List.range' (i + 1) (s.field.plan.length - i - 1), ?_, by rw [due]; rfl, fun j mem => ?_⟩
  · rw [List.range_eq_range', List.range_eq_range', ← List.range'_succ, show s.field.plan.length - i - 1 + 1 =
      s.field.plan.length - i by omega]
    have joined := List.range'_append (s := 0) (m := i) (n := s.field.plan.length - i) (step := 1)
    rw [show 0 + 1 * i = i by omega, show i + (s.field.plan.length - i) = s.field.plan.length by omega] at joined
    exact joined.symm
  · rw [before j (List.mem_range.1 mem)]
    rfl

theorem forwarded_spec (st : Station) (s : State) :
    (forwarded st s).1 = (if stationState s st = .silent then []
      else (s.field.forward.filter fun x => decide (x.mark = st.mark)).take 2) ∧
    (forwarded st s).2.Sublist s.field.forward ∧
    ((forwarded st s).2.filter fun x => decide (x.mark ≠ st.mark)) =
      (s.field.forward.filter fun x => decide (x.mark ≠ st.mark)) ∧
    ((forwarded st s).2.filter fun x => decide (x.mark = st.mark)) =
      (s.field.forward.filter fun x => decide (x.mark = st.mark)).drop (forwarded st s).1.length := by
  unfold forwarded
  by_cases silent : stationState s st = .silent
  · rw [if_pos silent, if_pos silent]
    exact ⟨rfl, List.Sublist.refl _, rfl, rfl⟩
  · obtain ⟨go, sub, others, mine⟩ := takeEntries_spec st.mark 2 s.field.forward
    rw [if_neg silent, if_neg silent]
    refine ⟨go, sub, others, mine.trans ?_⟩
    rw [go, List.length_take]
    by_cases short : 2 ≤ (s.field.forward.filter fun x => decide (x.mark = st.mark)).length
    · rw [min_eq_left short]
    · rw [min_eq_right (by omega), List.drop_length, List.drop_eq_nil_of_le (by omega)]

/-- Settles O52: the bodies byte by byte, and the visit to the first slot that is not passed over. -/
theorem visitSendsInOrder : Obligations.VisitSendsInOrder := by
  refine ⟨fun s k => ?_, fun s g => ⟨fun j mark working => ?_, gangJobBody_of_cancel⟩, fun s u e o even odd => ?_,
    fun s awoken => ?_⟩
  · intro c entry held
    have entries : entry = joblistEntry := funext fun r => (joblistEntry_eq r).symm
    refine ⟨fun full => ?_, joblistBody_of_empty⟩
    rw [joblistBody_of_full full, ← entries]
  · have job : (s.gangs[g]).state.job = some j := by
      rcases working with sent | working
      · rw [sent]
        rfl
      · rw [working]
        rfl
    refine ⟨areaBays s j.area, areaBays_sorted .., areaBays_perm .., ?_⟩
    rw [gangJobBody_of_job mark job, jobKind_code]
  · intro signal
    have same (l : LaneNo) : (s.lanes[l]).signal.code = signal l := by
      rw [signal_code]
      dsimp only [signal]
      split
      · rfl
      · cases (s.lanes[l]).slot <;> rfl
    unfold gateLightBody
    rw [same, same, show evenLane u = e from Fin.ext even.symm, show oddLane u = o from Fin.ext odd.symm]
  · intro n slot passedOver
    refine ⟨fun idle => next_awake awoken ?_, fun i st free here before due named => ?_⟩
    · unfold beginVisit
      split
      · rfl
      · next none =>
        rcases idle with under | all
        · rw [none] at under
          cases under
        · rw [nextVisit_of_none fun i below => visitable_of_passedOver (all i below)]
    · intro out mine go serial
      obtain ⟨gone, sub, others, mineLeft⟩ := forwarded_spec st s
      refine ⟨(forwarded st s).2, sub, others, mineLeft.trans ?_, next_awake awoken ?_⟩
      · rw [gone]
      have first := nextVisit_of_first here (fun j below => visitable_of_passedOver (before j below))
        (visitable_of_named named due)
      have begun : beginVisit s = startVisit ((s.field.nextSlot + i) % s.field.plan.length) st s := by
        unfold beginVisit
        rw [free, first]
      rw [begun, startVisit_eq, gone]
      cases st <;> rfl

end Sys2Proof.Machine


/-! PROOFS. What evaluations, call checks and dispatch passes leave of a crane's ACTIVE moves, of its JOBLIST mark and of the
lane slots. -/

namespace Sys2Proof.Machine

variable {s t u : State} {j k : CraneNo} {l : LaneNo} {n : MoveNo} {r : MoveRecord}

/-- Steps that keep every crane's mode, held flag and moves, crane `k`'s JOBLIST mark in agreement and its ACTIVE records but
for their hold on a lane; that write a lane slot only for a move of a crane IN_SERVICE, and none that is WORKED; that fill no
active slot of `k` where it is held or out of service; and that raise no request of `k` where it is out of service. -/
structure Served (k : CraneNo) (s t : State) : Prop where
  mode : ∀ j : CraneNo, (t.cranes[j]).mode = (s.cranes[j]).mode
  held : ∀ j : CraneNo, (t.cranes[j]).held = (s.cranes[j]).held
  moves : ∀ j : CraneNo, SameMoves s.queues[j] t.queues[j]
  idle : (s.cranes[k]).mode ≠ .inService ∨ (s.cranes[k]).held = true → (t.cranes[k]).active = (s.cranes[k]).active
  requests : (s.cranes[k]).mode ≠ .inService →
    ∀ (l : LaneNo) (q : Request), (t.lanes[l]).request = some q → q.crane = k → (s.lanes[l]).request = some q
  agreed : (s.cranes[k]).jobMark = agreement s k → (t.cranes[k]).jobMark = agreement t k
  slots : ∀ l : LaneNo, (t.lanes[l]).slot = (s.lanes[l]).slot ∨ (s.lanes[l]).slot ≠ .worked ∧
    ∃ m j, (t.lanes[l]).slot.move = some m ∧ (s.cranes[j]).mode = .inService ∧ m ∈ queueNumbers s j
  active : (queueNumbers s k).Nodup → ∀ r ∈ s.queues[k], r.state = .active →
    ∃ r' ∈ t.queues[k], r' = { r with lane := r'.lane, called := r'.called }

theorem SameMoves.nodup (h : SameMoves s.queues[j] t.queues[j]) (distinct : (queueNumbers s j).Nodup) :
    (queueNumbers t j).Nodup := by
  obtain ⟨l, perm, sub⟩ := h.numbers
  exact perm.nodup_iff.1 (distinct.sublist sub)

theorem eq_of_number (distinct : (queueNumbers s j).Nodup) {x y : MoveRecord} (hx : x ∈ s.queues[j]) (hy : y ∈ s.queues[j])
    (same : x.number = y.number) : x = y := List.inj_on_of_nodup_map distinct hx hy same

theorem Served.refl (k : CraneNo) (s : State) : Served k s s :=
  ⟨fun _ => rfl, fun _ => rfl, fun _ => .refl _, fun _ => rfl, fun _ _ _ stands _ => stands, id, fun _ => .inl rfl,
    fun _ r mem _ => ⟨r, mem, rfl⟩⟩

theorem Served.trans (h : Served k s t) (h' : Served k t u) : Served k s u where
  mode j := (h'.mode j).trans (h.mode j)
  held j := (h'.held j).trans (h.held j)
  moves j := (h.moves j).trans (h'.moves j)
  idle out := (h'.idle (by rw [h.mode, h.held]; exact out)).trans (h.idle out)
  requests out l q stands own := h.requests out l q (h'.requests (h.mode k ▸ out) l q stands own) own
  agreed := h'.agreed ∘ h.agreed
  slots l := by
    rcases h'.slots l with same | ⟨free, m, j, named, serving, mem⟩
    · rw [same]
      exact h.slots l
    · refine .inr ⟨fun worked => ?_, m, j, named, h.mode j ▸ serving, mem_numbers_of_moves (h.moves j) mem⟩
      rcases h.slots l with same | ⟨open_, -⟩
      · exact free (same.trans worked)
      · exact open_ worked
  active distinct r mem active := by
    obtain ⟨r', mem', same⟩ := h.active distinct r mem active
    obtain ⟨r'', mem'', same'⟩ := h'.active ((h.moves k).nodup distinct) r' mem' (by rw [same]; exact active)
    refine ⟨r'', mem'', ?_⟩
    rw [same] at same'
    exact same'

theorem Served.foldl {α : Type} {f : State → α → State} (step : ∀ s a, Served k s (f s a)) (as : List α) (s : State) :
    Served k s (as.foldl f s) := by
  induction as generalizing s with
  | nil => exact .refl ..
  | cons a as ih => exact (step s a).trans (ih _)

/-- Steps that leave the crane contexts, and rewrite every record alike. -/
theorem Served.of_cranes {f : MoveRecord → MoveRecord} (cranes : t.cranes = s.cranes)
    (queues : ∀ j : CraneNo, t.queues[j] = (s.queues[j]).map f) (plan : ∀ r, SamePlan r (f r))
    (active : ∀ r, r.state = .active → f r = { r with lane := (f r).lane, called := (f r).called })
    (requests : (s.cranes[k]).mode ≠ .inService →
      ∀ (l : LaneNo) (q : Request), (t.lanes[l]).request = some q → q.crane = k → (s.lanes[l]).request = some q)
    (slots : ∀ l : LaneNo, (t.lanes[l]).slot = (s.lanes[l]).slot ∨ (s.lanes[l]).slot ≠ .worked ∧
      ∃ m j, (t.lanes[l]).slot.move = some m ∧ (s.cranes[j]).mode = .inService ∧ m ∈ queueNumbers s j) : Served k s t where
  mode j := by rw [cranes]
  held j := by rw [cranes]
  idle _ := by rw [cranes]
  requests := requests
  moves j := queues j ▸ SameMoves.map plan _
  agreed before := by
    have numbers (j : CraneNo) : queueNumbers t j = queueNumbers s j := queueNumbers_map (queues j) fun r => (plan r).number
    rw [agreement_congr numbers (k := k) (by rw [cranes]) (by rw [cranes]) (by rw [cranes]), cranes]
    exact before
  slots := slots
  active _ r mem busy := ⟨f r, queues k ▸ List.mem_map_of_mem mem, active r busy⟩

/-- Steps that leave cranes, queues and slots. -/
theorem Served.of_same (cranes : t.cranes = s.cranes) (queues : t.queues = s.queues)
    (slots : ∀ l : LaneNo, (t.lanes[l]).slot = (s.lanes[l]).slot)
    (requests : (s.cranes[k]).mode ≠ .inService →
      ∀ (l : LaneNo) (q : Request), (t.lanes[l]).request = some q → q.crane = k → (s.lanes[l]).request = some q) :
    Served k s t :=
  .of_cranes (f := id) cranes (fun j => by rw [queues, List.map_id]) (fun r => .refl r) (fun _ _ => rfl) requests
    fun l => .inl (slots l)

theorem Served.of_relashed {W : AreaNo → Bool} (h : Relashed W s t) : Served k s t := by
  obtain ⟨f, queues, follow⟩ := h.records
  refine .of_cranes h.cranes queues (fun r => ?_) (fun r active => ?_)
    (fun _ l q stands _ => by rw [h.lanes] at stands; exact stands) fun l => .inl (by rw [h.lanes])
  · rw [(follow r).same]
    exact ⟨rfl, rfl, rfl, rfl, rfl⟩
  · rw [(follow r).busy (by simp [MoveRecord.busy, active])]

/-! ### One rule per operation -/

theorem withdrawRequests_served (p : Request → Bool) (s : State) : Served k s (withdrawRequests p s) :=
  .of_same rfl rfl (fun l => by rw [withdrawRequests, mapLanes_get]) fun _ l q stands _ => by
    rw [withdrawRequests, mapLanes_get] at stands
    exact (Option.filter_eq_some_iff.1 stands).1

theorem raiseRequest_requests {q : Request} (stands : ((raiseRequest j n s).lanes[l]).request = some q) (own : q.crane ≠ j) :
    (s.lanes[l]).request = some q := by
  unfold raiseRequest at stands
  split at stands
  · exact stands
  · split at stands
    · rw [modLane_get] at stands
      split at stands
      · cases stands
        exact absurd rfl own
      · exact stands
    · exact stands

theorem raiseRequest_served (serving : (s.cranes[j]).mode = .inService) (n : MoveNo) : Served k s (raiseRequest j n s) :=
  .of_same (raiseRequest_cranes ..) (raiseRequest_queues ..) (fun l => by rw [raiseRequest_lanes])
    fun out _ _ stands own => raiseRequest_requests stands fun same => out (own ▸ same ▸ serving)

theorem held_plan (f : MoveRecord → Option LaneNo × Bool) (n : MoveNo) (r : MoveRecord) :
    SamePlan r (if r.number = n then { r with lane := (f r).1, called := (f r).2 } else r) := by
  split
  · exact ⟨rfl, rfl, rfl, rfl, rfl⟩
  · exact .refl r

theorem held_rest (f : MoveRecord → Option LaneNo × Bool) (n : MoveNo) (r : MoveRecord) :
    (if r.number = n then { r with lane := (f r).1, called := (f r).2 } else r) = { r with
      lane := (if r.number = n then { r with lane := (f r).1, called := (f r).2 } else r).lane
      called := (if r.number = n then { r with lane := (f r).1, called := (f r).2 } else r).called } := by
  split <;> rfl

/-- One slot of a lane that is not WORKED given to a move of a crane IN_SERVICE, and the move's hold written. -/
theorem Served.of_hold {x : Slot} {f : MoveRecord → Option LaneNo × Bool} (cranes : t.cranes = s.cranes)
    (queues : t.queues = (modMove n (fun r => { r with lane := (f r).1, called := (f r).2 }) s).queues)
    (slot : ∀ m : LaneNo, (t.lanes[m]).slot = if m = l then x else (s.lanes[m]).slot) (move : x.move = some n)
    (requests : ∀ (m : LaneNo) (q : Request), (t.lanes[m]).request = some q → (s.lanes[m]).request = some q)
    (unworked : (s.lanes[l]).slot ≠ .worked) (serving : (s.cranes[j]).mode = .inService) (mem : n ∈ queueNumbers s j) :
    Served k s t := by
  refine .of_cranes cranes (fun i => ?_) (held_plan f n) (fun r _ => held_rest f n r)
    (fun _ m q stands _ => requests m q stands) fun m => ?_
  · rw [queues]
    exact mapMoves_get ..
  · rw [slot]
    split
    · next here => exact .inr ⟨here ▸ unworked, n, j, move, serving, mem⟩
    · exact .inl rfl

theorem reserve_served (found : laneFound s j = some l) (serving : (s.cranes[j]).mode = .inService)
    (mem : n ∈ queueNumbers s j) : Served k s (reserve j n l s) := by
  have free := FindsLane.free ((laneFound_eq_some_iff s j l).1 found)
  refine .of_hold (f := fun _ => (some l, false)) (x := .reserved n) (reserve_cranes ..) (by rw [reserve_eq j n l free]; rfl)
    (fun m => ?_) rfl (fun m q stands => ?_) (by rw [free]; nofun) serving mem
  · rw [reserve_lanes]
    split
    · next here => rw [here, reservedLanes_slot]
    · next other => exact (reservedLanes_other other).1
  · rw [reserve_lanes, reservedLanes_rest] at stands
    exact (Option.filter_eq_some_iff.1 stands).1

theorem issueCall_served (due : (s.lanes[l]).slot = .reserved r.number) (serving : (s.cranes[j]).mode = .inService)
    (mem : r.number ∈ queueNumbers s j) (a : Nat) : Served k s (issueCall r l a s) := by
  refine .of_hold (f := fun x => (x.lane, true)) (x := .called r.number) (l := l) (j := j) (n := r.number) ?_ ?_ (fun m => ?_) rfl
    (fun m q stands => ?_) (by rw [due]; nofun) serving mem
  · simp [issueCall]
  · refine (report_queues ..).trans (Vector.ext_get fun i => ?_)
    unfold modMove
    rw [mapMoves_get, mapMoves_get, setSlot_queues]
  · rw [issueCall, report_lanes, modMove_lanes, setSlot_get]
    split
    · rfl
    · rfl
  · rw [issueCall, report_lanes, modMove_lanes, setSlot_get] at stands
    split at stands
    · next here => exact here ▸ stands
    · exact stands

theorem testAgreement_get (j : CraneNo) (s : State) (i : CraneNo) : (testAgreement j s).cranes[i] =
    if i = j then { s.cranes[j] with jobMark := agreement s j } else s.cranes[i] := modCrane_get ..

/-- A test of agreement does not change what agreement is. -/
theorem agreement_testAgreement (j k : CraneNo) (s : State) : agreement (testAgreement j s) k = agreement s k := by
  refine agreement_congr (fun _ => rfl) ?_ ?_ ?_ <;>
  · rw [testAgreement_get]
    split
    · next here => rw [here]
    · rfl

theorem queueChanged_served (j : CraneNo) (s : State) : Served k s (queueChanged j s) :=
  .of_relashed (queueChanged_lashed (worked_deckWork s) j).toRelashed

theorem dispatchPass_served (s : State) : Served k s (dispatchPass s) :=
  .of_relashed (W := deckWork s) (dispatchPass_relashed s)

/-! ### The release -/

/-- Crane `j`'s queue rewritten, and its active or staged slot, with agreement tested then: its moves stay, and its ACTIVE
records. -/
theorem Served.of_released {q : List MoveRecord} {f : Crane → Crane} (moves : SameMoves s.queues[j] q)
    (kept : ∀ c : Crane, (f c).mode = c.mode ∧ (f c).held = c.held)
    (serving : (s.cranes[j]).mode = .inService) (unheld : (s.cranes[j]).held = false)
    (left : (queueNumbers s j).Nodup → ∀ r ∈ s.queues[j], r.state = .active → r ∈ q) :
    Served k s (testAgreement j (modCrane j f (setQueue j q s))) := by
  have queue (i : CraneNo) : (testAgreement j (modCrane j f (setQueue j q s))).queues[i] = if i = j then q else s.queues[i] :=
    setQueue_get ..
  have crane (i : CraneNo) : (testAgreement j (modCrane j f (setQueue j q s))).cranes[i] = if i = j then
      { f s.cranes[j] with jobMark := agreement (modCrane j f (setQueue j q s)) j } else s.cranes[i] := by
    rw [testAgreement_get, modCrane_same]
    split
    · rfl
    · next other => exact (modCrane_get ..).trans (if_neg other)
  have same (i : CraneNo) : SameMoves s.queues[i] (testAgreement j (modCrane j f (setQueue j q s))).queues[i] := by
    rw [queue]
    split
    · next here => exact here ▸ moves
    · exact .refl _
  refine ⟨fun i => ?_, fun i => ?_, same, fun out => ?_, fun _ _ _ stands _ => stands, fun before => ?_, fun _ => .inl rfl,
    fun distinct r mem active => ⟨r, ?_, rfl⟩⟩
  · rw [crane]
    split
    · next here => rw [here]; exact (kept _).1
    · rfl
  · rw [crane]
    split
    · next here => rw [here]; exact (kept _).2
    · rfl
  · rw [crane, if_neg]
    rintro rfl
    rcases out with out | held
    · exact out serving
    · rw [unheld] at held
      cases held
  · by_cases here : k = j
    · subst here
      rw [agreement_testAgreement, testAgreement_get, if_pos rfl]
    · have kept : (testAgreement j (modCrane j f (setQueue j q s))).cranes[k] = s.cranes[k] := (crane k).trans (if_neg here)
      rw [kept, agreement_of_members (members_of_moves same) (by rw [kept]) (by rw [kept]) (by rw [kept])]
      exact before
  · rw [queue]
    split
    · next here =>
      subst here
      exact left distinct r mem active
    · exact mem

theorem mem_without {x : MoveRecord} {q : List MoveRecord} : x ∈ without n q ↔ x ∈ q ∧ x.number ≠ n := by
  simp [without]

theorem released_served (mem : r ∈ s.queues[j]) (ready : (queueNumbers s j).Nodup → r.state = .ready)
    (serving : (s.cranes[j]).mode = .inService) (unheld : (s.cranes[j]).held = false) :
    Served k s (testAgreement j (toActive j r s)) ∧ Served k s (testAgreement j (toStaged j r s)) := by
  have left (distinct : (queueNumbers s j).Nodup) (x : MoveRecord) (hx : x ∈ s.queues[j]) (active : x.state = .active) :
      x ∈ without r.number s.queues[j] := by
    refine mem_without.2 ⟨hx, fun same => ?_⟩
    rw [eq_of_number distinct hx mem same, ready distinct] at active
    cases active
  refine ⟨.of_released (SameMoves.front (r' := activate s j r) mem ⟨rfl, rfl, rfl, rfl, rfl⟩) (fun _ => ⟨rfl, rfl⟩) serving unheld
      fun distinct x hx active => List.mem_cons_of_mem _ (left distinct x hx active),
    .of_released ((SameMoves.front (r' := { r with state := .staged }) mem ⟨rfl, rfl, rfl, rfl, rfl⟩).perm
      (placeBehindActive_perm ..)) (fun _ => ⟨rfl, rfl⟩) serving unheld fun distinct x hx active => ?_⟩
  exact (placeBehindActive_perm ..).mem_iff.2 (List.mem_cons_of_mem _ (left distinct x hx active))

/-- What the search says of the candidate that it answers. -/
theorem searchMoves_chosen {rs : List MoveRecord} {c : Candidate} (chosen : (searchMoves j rs s).2 = some c) :
    (∃ r ∈ rs, r.number = c.number ∧ r.state = .ready) ∧
    ∀ l, c.lane = some l → laneFound (searchMoves j rs s).1 j = some l := by
  induction rs generalizing s with
  | nil => cases chosen
  | cons r rs ih =>
    have later {x : State} (found : (searchMoves j rs x).2 = some c) :
        (∃ y ∈ r :: rs, y.number = c.number ∧ y.state = .ready) ∧
        ∀ l, c.lane = some l → laneFound (searchMoves j rs x).1 j = some l := by
      obtain ⟨⟨y, mem, named⟩, lane⟩ := ih found
      exact ⟨⟨y, List.mem_cons_of_mem _ mem, named⟩, lane⟩
    unfold searchMoves at chosen ⊢
    by_cases ready : r.state = .ready
    · rw [if_neg (not_not.2 ready)] at chosen ⊢
      split at chosen
      · split at chosen
        · cases chosen
          rename_i settled clear
          rw [if_pos settled, if_pos clear]
          exact ⟨⟨r, List.mem_cons_self, rfl, ready⟩, nofun⟩
        · rename_i settled clear
          rw [if_pos settled, if_neg clear]
          exact later chosen
      · rename_i seeking
        rw [if_neg seeking]
        cases found : laneFound s j with
        | none =>
          rw [found] at chosen
          exact later chosen
        | some l =>
          rw [found] at chosen
          dsimp only at chosen ⊢
          split at chosen
          · cases chosen
            rename_i clear
            rw [if_pos clear]
            exact ⟨⟨r, List.mem_cons_self, rfl, ready⟩, fun m same => by cases same; exact found⟩
          · rename_i clear
            rw [if_neg clear]
            exact later chosen
    · rw [if_pos ready] at chosen ⊢
      exact later chosen

theorem searchMoves_served (rs : List MoveRecord) (s : State) (serving : (s.cranes[j]).mode = .inService) :
    Served k s (searchMoves j rs s).1 := by
  induction rs generalizing s with
  | nil => exact .refl ..
  | cons r rs ih =>
    unfold searchMoves
    split
    · exact ih s serving
    · split
      · split
        · exact .refl ..
        · exact ih s serving
      · split
        · have raised := raiseRequest_served (k := k) serving r.number
          exact raised.trans (ih _ ((raised.mode j).trans serving))
        · split
          · exact .refl ..
          · exact ih s serving

/-- A candidate: the number of a READY move, and a lane only where one is found. -/
structure Chosen (s : State) (j : CraneNo) (c : Candidate) : Prop where
  ready : ∃ r ∈ s.queues[j], r.number = c.number ∧ r.state = .ready
  lane : ∀ l, c.lane = some l → laneFound s j = some l

theorem reserveFound_queues (j i : CraneNo) {c : Candidate} (lane : ∀ l, c.lane = some l → laneFound s j = some l) :
    ∃ f : MoveRecord → MoveRecord, (reserveFound j c s).queues[i] = (s.queues[i]).map f ∧
      ∀ r, (f r).number = r.number ∧ (f r).state = r.state := by
  unfold reserveFound
  cases here : c.lane with
  | none => exact ⟨id, (List.map_id _).symm, fun r => ⟨rfl, rfl⟩⟩
  | some l =>
    have free := FindsLane.free ((laneFound_eq_some_iff s j l).1 (lane l here))
    refine ⟨fun r => if r.number = c.number then { r with lane := some l, called := false } else r, ?_, fun r => ?_⟩
    · dsimp only
      rw [reserve_eq j c.number l free]
      exact mapMoves_get ..
    · dsimp only
      split
      · exact ⟨rfl, rfl⟩
      · exact ⟨rfl, rfl⟩

theorem Chosen.found {c : Candidate} (chosen : Chosen s j c) (distinct : (queueNumbers s j).Nodup)
    (found : findIn (reserveFound j c s) j c.number = some r) : r.state = .ready := by
  obtain ⟨y, mem, named, ready⟩ := chosen.ready
  obtain ⟨f, queue, follow⟩ := reserveFound_queues j j chosen.lane
  rw [findIn_of_queue queue (fun x => (follow x).1)] at found
  obtain ⟨z, here, rfl⟩ := Option.map_eq_some_iff.1 found
  obtain ⟨mem', number⟩ := findIn_mem here
  rw [(follow z).2, eq_of_number distinct mem' mem (number.trans named.symm), ready]

theorem releaseMove_served {c : Candidate} (chosen : Chosen s j c) (serving : (s.cranes[j]).mode = .inService)
    (unheld : (s.cranes[j]).held = false) : Served k s (releaseMove j c s) := by
  have reserved : Served k s (reserveFound j c s) := by
    unfold reserveFound
    split
    · next l here =>
      obtain ⟨r, mem, number, -⟩ := chosen.ready
      exact reserve_served (chosen.lane l here) serving (number ▸ List.mem_map_of_mem mem)
    · exact .refl ..
  unfold releaseMove
  dsimp only
  split
  · exact reserved
  · next r found =>
    obtain ⟨f, queue, follow⟩ := reserveFound_queues j j chosen.lane
    have ready (distinct : (queueNumbers (reserveFound j c s) j).Nodup) : r.state = .ready := by
      rw [queueNumbers_map queue fun x => (follow x).1] at distinct
      exact chosen.found distinct found
    obtain ⟨toActive, toStaged⟩ := released_served (k := k) (findIn_mem found).1 ready ((reserved.mode j).trans serving)
      ((reserved.held j).trans unheld)
    refine (reserved.trans ?_).trans (queueChanged_served j _)
    split
    · exact toActive
    · exact toStaged

theorem searchMoves_queues (rs : List MoveRecord) (s : State) : (searchMoves j rs s).1.queues = s.queues := by
  induction rs generalizing s with
  | nil => rfl
  | cons r rs ih =>
    unfold searchMoves
    split
    · exact ih s
    · split
      · split
        · rfl
        · exact ih s
      · split
        · exact (ih _).trans (raiseRequest_queues ..)
        · split
          · rfl
          · exact ih s

theorem searchAndRelease_served (serving : (s.cranes[j]).mode = .inService) (unheld : (s.cranes[j]).held = false) :
    Served k s (searchAndRelease j s) := by
  have searched := searchMoves_served (k := k) (window s j) s serving
  have queues := searchMoves_queues (j := j) (window s j) s
  unfold searchAndRelease
  split
  · next u eq =>
    rw [eq] at searched
    exact searched
  · next u c eq =>
    obtain ⟨⟨r, mem, number, ready⟩, lane⟩ := searchMoves_chosen (congrArg Prod.snd eq)
    rw [eq] at searched queues lane
    have chosen : Chosen u j c := by
      refine ⟨⟨r, ?_, number, ready⟩, lane⟩
      rw [show u.queues = s.queues from queues]
      exact (List.dropWhile_sublist _).mem (List.mem_of_mem_take mem)
    exact searched.trans (releaseMove_served chosen ((searched.mode j).trans serving) ((searched.held j).trans unheld))

theorem evaluateOnce_served (j : CraneNo) (s : State) : Served k s (evaluateOnce j s) := by
  have dropped : Served k s (dropStaleRequest j s) := withdrawRequests_served ..
  refine dropped.trans ?_
  show Served k (dropStaleRequest j s) (releaseWork j (dropStaleRequest j s))
  unfold releaseWork
  split
  · next condition =>
    have open_ := ((releaseCondition_iff ..).1 condition).1
    simp only [craneOpen, Bool.and_eq_true, decide_eq_true_eq, Bool.not_eq_true'] at open_
    obtain ⟨⟨⟨⟨⟨serving, unheld⟩, -⟩, -⟩, -⟩, -⟩ := open_
    have first := searchAndRelease_served (k := k) serving unheld
    dsimp only
    split
    · exact first.trans (searchAndRelease_served ((first.mode j).trans serving) ((first.held j).trans unheld))
    · exact first
  · exact .refl ..

/-! ### Call checks and evaluations -/

theorem checkReserve_served (serving : (s.cranes[j]).mode = .inService) (n : MoveNo) : Served k s (checkReserve j n s) := by
  unfold checkReserve
  split
  · exact .refl ..
  · next r found =>
    split
    · split
      · next l lane =>
        obtain ⟨mem, number⟩ := findIn_mem found
        exact reserve_served lane serving (number ▸ List.mem_map_of_mem mem)
      · exact raiseRequest_served serving n
    · exact .refl ..

theorem checkCall_served (serving : (s.cranes[j]).mode = .inService) (n : MoveNo) (a : Nat) : Served k s (checkCall j n a s) := by
  unfold checkCall
  split
  · exact .refl ..
  · next r found =>
    split
    · exact .refl ..
    · split
      · next due =>
        obtain ⟨mem, number⟩ := findIn_mem found
        obtain ⟨-, slot, -⟩ := due
        exact issueCall_served (number ▸ slot) serving (List.mem_map_of_mem mem) a
      · exact .refl ..

theorem checkMoves_served (serving : (s.cranes[j]).mode = .inService) : Served k s (checkMoves j s) := by
  have dropped : Served k s (dropStaleRequest j s) := withdrawRequests_served ..
  have folded (ms : List (MoveNo × Nat)) (x : State) (serving : (x.cranes[j]).mode = .inService) :
      Served k x (ms.foldl (fun s (n, a) => checkCall j n a (checkReserve j n s)) x) := by
    induction ms generalizing x with
    | nil => exact .refl ..
    | cons m ms ih =>
      have first := checkReserve_served (k := k) serving m.1
      have both := first.trans (checkCall_served ((first.mode j).trans serving) m.1 m.2)
      exact both.trans (ih _ ((both.mode j).trans serving))
  exact dropped.trans (folded _ _ ((dropped.mode j).trans serving))

theorem mode_of_checkAllowed (allowed : checkAllowed s j = true) : (s.cranes[j]).mode = .inService :=
  ((checkAllowed_iff s j).1 allowed).1

theorem evaluate_served (j : CraneNo) (s : State) : Served k s (evaluate j s) := by
  have first := evaluateOnce_served (k := k) j s
  unfold evaluate
  dsimp only
  split
  · refine first.trans ?_
    unfold checkAfterActivation
    split
    · next allowed =>
      have checked := checkMoves_served (k := k) (mode_of_checkAllowed allowed)
      dsimp only
      split
      · exact checked.trans (evaluateOnce_served ..)
      · exact checked
    · exact .refl ..
  · exact first

theorem callCheck_served (j : CraneNo) (s : State) : Served k s (callCheck j s) := by
  unfold callCheck
  split
  · next allowed =>
    have checked := checkMoves_served (k := k) (mode_of_checkAllowed allowed)
    dsimp only
    split
    · exact checked.trans (evaluate_served ..)
    · exact checked
  · exact .refl ..

theorem evaluateMany_served (js : List CraneNo) (s : State) : Served k s (evaluateMany js s) := by
  have used : Served k s (useFree s) := .of_same rfl rfl (fun _ => rfl) fun _ _ _ stands _ => stands
  unfold evaluateMany
  split
  · exact .refl ..
  · exact evaluate_served ..
  · exact used.trans (Served.foldl (fun x j => evaluate_served j x) _ _)

end Sys2Proof.Machine


/-! PROOFS. The completion of a move in its stages: measured, freed, its successor taken, the acceptance and berth tests, and
the work that follows (R78). -/

namespace Sys2Proof.Machine

variable {s t u : State} {j k : CraneNo} {l : LaneNo} {n : MoveNo} {r : MoveRecord} {i : Fin 14} {d : PendingDirective}

/-! ### The flags of a report class -/

/-- A report of class `i` has been offered since the flags were cleared: its seen or its lost flag is set. -/
def Recorded (i : Fin 14) (s : State) : Prop := s.reports.seen[i] = true ∨ s.reports.lost[i] = true

theorem Recorded.of_reports (h : Recorded i s) (same : t.reports = s.reports) : Recorded i t := by
  unfold Recorded
  rw [same]
  exact h

theorem set_true_of_true {v : Vector Bool 14} {c : Fin 14} (h : v[i] = true) : (v.set c true)[i] = true := by
  rw [Vector.get_set]
  split
  · rfl
  · exact h

theorem joinReport_recorded (x : Items) (h : i = x.cls ∨ Recorded i s) : Recorded i (joinReport x s) := by
  rcases h with own | seen | lost
  · refine .inl ?_
    show (s.reports.seen.set x.cls true)[i] = true
    rw [Vector.get_set, if_pos own]
  · exact .inl (set_true_of_true seen)
  · exact .inr lost

theorem markLost_recorded (c : Fin 14) (h : i = c ∨ Recorded i s) : Recorded i (markLost c s) := by
  rcases h with own | seen | lost
  · refine .inr ?_
    show (s.reports.lost.set c true)[i] = true
    rw [Vector.get_set, if_pos own]
  · exact .inl seen
  · exact .inr (set_true_of_true lost)

theorem report_recorded (x : Items) (h : i = x.cls ∨ Recorded i s) : Recorded i (report x s) := by
  unfold report
  split
  · exact joinReport_recorded x h
  · split
    · exact joinReport_recorded x (h.imp_right fun before => markLost_recorded _ (.inr before))
    · exact markLost_recorded x.cls h

theorem setDeck_recorded (a : AreaNo) (x : Deck) (c : AreaCause) (h : Recorded i s) : Recorded i (setDeck a x c s) := by
  have told := report_recorded (.area a (s.areas[a]).deck x c) (s := modArea a (fun y => { y with deck := x }) s) (.inr h)
  exact told.of_reports (reevaluate_reports ..)

theorem Quiet.recorded (q : Quiet s t) (h : Recorded i s) : Recorded i t := by
  cases q with
  | reported x => exact report_recorded x (.inr h)
  | reevaluated p => exact h.of_reports (reevaluate_reports ..)
  | agreed k => exact h.of_reports (testAgreement_reports ..)
  | slotSet l x => exact h.of_reports (setSlot_reports ..)
  | held n f => exact h.of_reports (modMove_reports ..)
  | unrequested p => exact h.of_reports (withdrawRequests_reports ..)
  | raised k n => exact h.of_reports (raiseRequest_reports ..)
  | owned k l => exact h
  | jobCreated a k c => exact setDeck_recorded a _ c (h.of_reports (setJobs_reports ..))
  | jobWithdrawn a k c => exact setDeck_recorded a _ c (h.of_reports (setJobs_reports ..))
  | jobGiven g j =>
    refine report_recorded _ (.inr (Recorded.of_reports ?_ (setGangPresent_reports ..)))
    exact setDeck_recorded j.area _ .dispatched h
  | activated k r => exact h.of_reports (toActive_reports ..)
  | staged k r => exact h.of_reports (toStaged_reports ..)
  | freeUsed => exact h

theorem QReach.recorded (q : QReach s t) (h : Recorded i s) : Recorded i t := by
  induction q with
  | refl => exact h
  | tail _ last ih => exact last.recorded ih

theorem testBerth_recorded (k : CraneNo) (h : Recorded i s) : Recorded i (testBerth (some k) s) := by
  unfold testBerth
  split
  · exact report_recorded _ (.inr h)
  · exact report_recorded _ (.inr h)
  · exact h

/-! ### The acceptance test -/

theorem withdrawCrane_recorded (k : CraneNo) (h : Recorded i s) : Recorded i (withdrawCrane k s) :=
  QReach.recorded ((releaseSlots_quiet ..).trans (withdrawRequests_quiet ..)) (testBerth_recorded k h)

theorem testAcceptance_recorded (k : CraneNo) (h : Recorded i s) : Recorded i (testAcceptance k s) := by
  unfold testAcceptance
  split
  · exact h
  · split
    · exact h
    · refine report_recorded _ (.inr ?_)
      show Recorded i (if _ then withdrawCrane k s else s)
      split
      · exact withdrawCrane_recorded k h
      · exact h

/-- A pending directive of a crane with an empty active slot is accepted. -/
theorem testAcceptance_of_pending (pending : (s.cranes[k]).directive = some d) (inactive : (s.cranes[k]).active = none) :
    testAcceptance k s = accepted k d .normal (if d.kind = .withdraw then withdrawCrane k s else s) := by
  unfold testAcceptance
  rw [pending, inactive]
  exact if_neg Bool.false_ne_true

theorem testAcceptance_of_no_directive (none : (s.cranes[k]).directive = none) : testAcceptance k s = s := by
  unfold testAcceptance
  rw [none]

theorem withdrawCrane_crane (k : CraneNo) (s : State) : (withdrawCrane k s).cranes[k] = { s.cranes[k] with mode := .withdrawn } := by
  rw [withdrawCrane_state]
  exact (Vector.get_set ..).trans (if_pos rfl)

theorem accepted_crane (k : CraneNo) (d : PendingDirective) (way : Acceptance) (s : State) :
    (accepted k d way s).cranes[k] = { s.cranes[k] with directive := none } := by
  rw [accepted_state]
  exact (settledDirective_get ..).trans (if_pos rfl)

theorem testAcceptance_crane_of_pending (pending : (s.cranes[k]).directive = some d) (inactive : (s.cranes[k]).active = none) :
    (testAcceptance k s).cranes[k] = { s.cranes[k] with
      mode := if d.kind = .withdraw then .withdrawn else (s.cranes[k]).mode, directive := none } := by
  rw [testAcceptance_of_pending pending inactive, accepted_crane]
  split
  · rw [withdrawCrane_crane]
  · rfl

theorem accepted_kept (k : CraneNo) (d : PendingDirective) (way : Acceptance) (s : State) :
    (accepted k d way s).cycles = s.cycles ∧
    ((accepted k d way s).cranes[k]).lastCompletion = (s.cranes[k]).lastCompletion ∧
    ∀ j, queueNumbers (accepted k d way s) j = queueNumbers s j := by
  refine ⟨?_, by rw [accepted_crane], fun j => ?_⟩
  · rw [accepted_state]
    rfl
  · rw [accepted_state]
    rfl

/-- What the acceptance test leaves alone. -/
theorem testAcceptance_kept (k : CraneNo) (s : State) : (testAcceptance k s).cycles = s.cycles ∧
    ((testAcceptance k s).cranes[k]).lastCompletion = (s.cranes[k]).lastCompletion ∧
    ∀ j, queueNumbers (testAcceptance k s) j = queueNumbers s j := by
  cases pending : (s.cranes[k]).directive with
  | none =>
    rw [testAcceptance_of_no_directive pending]
    exact ⟨rfl, rfl, fun _ => rfl⟩
  | some d =>
    by_cases inactive : (s.cranes[k]).active = none
    · rw [testAcceptance_of_pending pending inactive]
      by_cases withdraw : d.kind = .withdraw
      · rw [if_pos withdraw]
        obtain ⟨cycles, last, numbers⟩ := accepted_kept k d .normal (withdrawCrane k s)
        refine ⟨cycles.trans ?_, last.trans ?_, fun j => (numbers j).trans (withdrawCrane_numbers j)⟩
        · rw [withdrawCrane_state]
        · rw [withdrawCrane_crane]
      · rw [if_neg withdraw]
        exact accepted_kept ..
    · rw [testAcceptance_of_active (Option.isSome_iff_ne_none.2 inactive)]
      exact ⟨rfl, rfl, fun _ => rfl⟩

/-! ### The stages of a completion -/

/-- The move measured and freed, with its MOVE_DONE report. -/
def moveFreed (k : CraneNo) (r : MoveRecord) (s : State) : State :=
  report (.moveDone r.number k) (freeRecord k r (measure k r s))

/-- And the STAGED move promoted. -/
def successorTaken (k : CraneNo) (r : MoveRecord) (s : State) : State := promoteStaged k (moveFreed k r s)

/-- And the tests of a pending directive and of the berth made. -/
def completionTested (k : CraneNo) (r : MoveRecord) (s : State) : State :=
  testBerth (some k) (testAcceptance k (successorTaken k r s))

/-- The work that follows: agreement, the evaluation of every crane, and the dispatch pass. -/
def reworked (k : CraneNo) (v : State) : State := dispatchPass (evaluateMany cranes (testAgreement k v))

theorem complete_eq (k : CraneNo) (r : MoveRecord) (s : State) : complete k r s =
    if ((completionTested k r s).cranes[k]).active.isNone ∧
        ((reworked k (completionTested k r s)).cranes[k]).active.isSome then
      reworked k (completionTested k r s)
    else callCheck k (reworked k (completionTested k r s)) := by
  unfold complete reworked completionTested successorTaken moveFreed
  dsimp only

theorem complete_of_activated (none : ((completionTested k r s).cranes[k]).active = none)
    (filled : ((reworked k (completionTested k r s)).cranes[k]).active.isSome = true) :
    complete k r s = reworked k (completionTested k r s) := by
  rw [complete_eq]
  exact if_pos ⟨Option.isNone_iff_eq_none.2 none, filled⟩

theorem complete_of_checked (still : ((completionTested k r s).cranes[k]).active.isSome = true ∨
      ((reworked k (completionTested k r s)).cranes[k]).active = none) :
    complete k r s = callCheck k (reworked k (completionTested k r s)) := by
  rw [complete_eq]
  refine if_neg fun both => ?_
  obtain ⟨empty, filled⟩ := both
  rcases still with before | after
  · exact Option.isSome_iff_ne_none.1 before (Option.isNone_iff_eq_none.1 empty)
  · exact Option.isSome_iff_ne_none.1 filled after

theorem completed_iff (k : CraneNo) (r : MoveRecord) (s t : State) : Completed k r s t ↔
    (((completionTested k r s).cranes[k]).active = none →
      ((reworked k (completionTested k r s)).cranes[k]).active.isSome → t = reworked k (completionTested k r s)) ∧
    (((completionTested k r s).cranes[k]).active.isSome ∨ ((reworked k (completionTested k r s)).cranes[k]).active = none →
      CallChecked k (reworked k (completionTested k r s)) t) := by
  unfold Completed reworked completionTested successorTaken moveFreed
  exact Iff.rfl

theorem complete_completed (k : CraneNo) (r : MoveRecord) (s : State) : Completed k r s (complete k r s) := by
  refine (completed_iff ..).2 ⟨complete_of_activated, fun still => ?_⟩
  rw [complete_of_checked still]
  exact callCheck_callChecked ..

theorem complete_cases (k : CraneNo) (r : MoveRecord) (s : State) :
    complete k r s = reworked k (completionTested k r s) ∨
    complete k r s = callCheck k (reworked k (completionTested k r s)) := by
  by_cases still : ((completionTested k r s).cranes[k]).active.isSome = true ∨
      ((reworked k (completionTested k r s)).cranes[k]).active = none
  · exact .inr (complete_of_checked still)
  · obtain ⟨before, after⟩ := not_or.1 still
    exact .inl (complete_of_activated (by simpa using before) (Option.isSome_iff_ne_none.2 after))

theorem reworked_quiet (k : CraneNo) (v : State) : QReach v (reworked k v) :=
  (testAgreement_quiet k v).trans ((evaluateMany_quiet ..).trans (dispatchPass_quiet _))

theorem complete_quiet (k : CraneNo) (r : MoveRecord) (s : State) : QReach (completionTested k r s) (complete k r s) := by
  rcases complete_cases k r s with eq | eq
  · rw [eq]
    exact reworked_quiet ..
  · rw [eq]
    exact (reworked_quiet ..).trans (callCheck_quiet ..)

theorem complete_served (k : CraneNo) (r : MoveRecord) (s : State) :
    Served k (testAgreement k (completionTested k r s)) (complete k r s) := by
  have worked : Served k (testAgreement k (completionTested k r s)) (reworked k (completionTested k r s)) :=
    (evaluateMany_served ..).trans (dispatchPass_served _)
  rcases complete_cases k r s with eq | eq
  · rw [eq]
    exact worked
  · rw [eq]
    exact worked.trans (callCheck_served ..)

end Sys2Proof.Machine


/-! PROOFS. What the stages of a completion leave (R16, R48 to R50, R78, R121). -/

namespace Sys2Proof.Machine

variable {s t u : State} {j k : CraneNo} {l : LaneNo} {n : MoveNo} {r : MoveRecord} {i : Fin 14} {d : PendingDirective}

/-! ### The move measured and freed -/

theorem measure_crane (k : CraneNo) (r : MoveRecord) (s : State) :
    (measure k r s).cranes[k] = { s.cranes[k] with lastCompletion := some s.clock } := modCrane_same ..

theorem moveFreed_crane (k : CraneNo) (r : MoveRecord) (s : State) :
    (moveFreed k r s).cranes[k] = { s.cranes[k] with lastCompletion := some s.clock } := by
  rw [moveFreed, report_cranes, freeRecord_cranes, measure_crane]

theorem moveFreed_numbers (j : CraneNo) : queueNumbers (moveFreed k r s) j =
    if j = k then (queueNumbers s k).filter fun n => decide (n ≠ r.number) else queueNumbers s j := by
  have queues : (moveFreed k r s).queues = (freeRecord k r (measure k r s)).queues := report_queues ..
  unfold queueNumbers
  rw [queues]
  exact freeRecord_numbers j

theorem moveFreed_kept (k : CraneNo) (r : MoveRecord) (s : State) : (moveFreed k r s).clock = s.clock ∧
    (moveFreed k r s).berth = s.berth ∧ (moveFreed k r s).cycles = (measure k r s).cycles := by
  have quiet : QReach (removed k r (measure k r s)) (moveFreed k r s) := (freeRecord_quiet ..).trans (report_quiet ..)
  have kept := QReach.keeps quiet
  exact ⟨kept.clock, kept.berth, kept.cycles⟩

theorem moveFreed_recorded (k : CraneNo) (r : MoveRecord) (s : State) : Recorded 3 (moveFreed k r s) :=
  report_recorded _ (.inl rfl)

/-- The planned part that the freeing of another move leaves, and the only way to be ACTIVE after it. -/
structure LeftBeside (y x : MoveRecord) : Prop where
  number : x.number = y.number
  kind : x.kind = y.kind
  legs : x.legs = y.legs
  active : x.state = .active → y.state = .active

theorem dependentFreed_left (s : State) (n : MoveNo) (y : MoveRecord) : LeftBeside y (dependentFreed s n y) := by
  refine ⟨by rw [dependentFreed_same], by rw [dependentFreed_same], by rw [dependentFreed_same], fun active => ?_⟩
  unfold dependentFreed at active
  split at active
  · split at active
    · exact active
    · rw [evaluateRecord_state] at active
      split at active <;> cases active
  · exact active

theorem Followed.left (h : Followed s t r u') : LeftBeside r u' := by
  refine ⟨by rw [h.same], by rw [h.same], by rw [h.same], fun active => ?_⟩
  rcases h.state with same | ready | pending
  · rw [← same]
    exact active
  · rw [ready] at active
    cases active
  · rw [pending] at active
    cases active

theorem LeftBeside.trans {x y z : MoveRecord} (h : LeftBeside x y) (h' : LeftBeside y z) : LeftBeside x z :=
  ⟨h'.number.trans h.number, h'.kind.trans h.kind, h'.legs.trans h.legs, h.active ∘ h'.active⟩

theorem moveFreed_queue (k : CraneNo) (r : MoveRecord) (s : State) : ∃ g : MoveRecord → MoveRecord,
    (moveFreed k r s).queues[k] = (without r.number s.queues[k]).map g ∧ ∀ y, LeftBeside y (g y) := by
  obtain ⟨f, queues, follow⟩ := (freeRecord_lashed k r (measure k r s)).records
  refine ⟨f ∘ dependentFreed (measure k r s) r.number, ?_, fun y => (dependentFreed_left ..).trans (follow _).left⟩
  rw [moveFreed, report_queues, queues, removed_queues, if_pos rfl, List.map_map]
  rfl

theorem findIn_without {m : MoveNo} {q : List MoveRecord} (other : m ≠ n) :
    (without n q).find? (fun x => decide (x.number = m)) = q.find? fun x => decide (x.number = m) := by
  unfold without
  rw [List.find?_filter]
  refine congrArg (fun p => q.find? p) (funext fun x => ?_)
  by_cases here : x.number = m
  · simp [here, other]
  · simp [here]

theorem findIn_moveFreed (other : n ≠ r.number) {q : MoveRecord} (found : findIn s k n = some q) :
    ∃ x, findIn (moveFreed k r s) k n = some x ∧ LeftBeside q x := by
  obtain ⟨g, queue, left⟩ := moveFreed_queue k r s
  refine ⟨g q, ?_, left q⟩
  have number : ((fun x : MoveRecord => decide (x.number = n)) ∘ g) = fun x => decide (x.number = n) :=
    funext fun x => by rw [Function.comp_apply, (left x).number]
  unfold findIn at found ⊢
  rw [queue, List.find?_map, number, findIn_without other, found]
  rfl

/-! ### The STAGED move promoted -/

theorem promoteStaged_crane (k : CraneNo) (s : State) :
    (promoteStaged k s).cranes[k] = { s.cranes[k] with active := (s.cranes[k]).staged, staged := none } := by
  unfold promoteStaged
  split
  · next none =>
    rw [modCrane_same, none]
  · next n staged =>
    rw [modCrane_same, staged]
    rfl

theorem queueNumbers_modCrane (k : CraneNo) (f : Crane → Crane) (s : State) (j : CraneNo) :
    queueNumbers (modCrane k f s) j = queueNumbers s j := rfl

theorem promoteStaged_kept (k : CraneNo) (s : State) : (promoteStaged k s).cycles = s.cycles ∧
    (promoteStaged k s).reports = s.reports ∧ ∀ j, queueNumbers (promoteStaged k s) j = queueNumbers s j := by
  unfold promoteStaged
  split
  · exact ⟨rfl, rfl, fun _ => rfl⟩
  · refine ⟨rfl, rfl, fun j => ?_⟩
    rw [queueNumbers_modCrane, modMove]
    exact queueNumbers_mapMoves (fun x => by split <;> rfl) s j

theorem promoteStaged_queues_of_none (unstaged : (s.cranes[k]).staged = none) : (promoteStaged k s).queues = s.queues := by
  unfold promoteStaged
  split
  · rfl
  · next n staged =>
    rw [unstaged] at staged
    cases staged

theorem findIn_modCrane (j k : CraneNo) (f : Crane → Crane) (s : State) (n : MoveNo) :
    findIn (modCrane j f s) k n = findIn s k n := rfl

theorem findIn_promoteStaged (staged : (s.cranes[k]).staged = some n) :
    findIn (promoteStaged k s) k n = (findIn s k n).map (activate s k) := by
  unfold promoteStaged
  split
  · next unstaged =>
    rw [staged] at unstaged
    cases unstaged
  · next m staged' =>
    rw [staged] at staged'
    cases staged'
    rw [findIn_modCrane, findIn_modMove (f := activate s k) fun _ => rfl]

/-- What activation writes (R15, R16). -/
theorem activate_spec (s : State) (k : CraneNo) (r : MoveRecord) : (activate s k r).number = r.number ∧
    (activate s k r).kind = r.kind ∧ (activate s k r).legs = r.legs ∧ (activate s k r).state = .active ∧
    (activate s k r).activation = some s.clock ∧ (activate s k r).progress = some ⟨r.kind.first, false, false⟩ ∧
    (activate s k r).holdOverlap = (decide (s.berth.state ≠ .running) || (s.cranes[k]).held) :=
  ⟨rfl, rfl, rfl, rfl, rfl, rfl, rfl⟩

/-! ### The directive and the berth tested -/

theorem successorTaken_crane (k : CraneNo) (r : MoveRecord) (s : State) : (successorTaken k r s).cranes[k] = { s.cranes[k] with
    lastCompletion := some s.clock, active := (s.cranes[k]).staged, staged := none } := by
  rw [successorTaken, promoteStaged_crane, moveFreed_crane]

theorem successorTaken_numbers (j : CraneNo) : queueNumbers (successorTaken k r s) j =
    if j = k then (queueNumbers s k).filter fun n => decide (n ≠ r.number) else queueNumbers s j :=
  ((promoteStaged_kept ..).2.2 j).trans (moveFreed_numbers j)

theorem testBerth_kept (k : CraneNo) (s : State) : (testBerth (some k) s).queues = s.queues ∧
    (testBerth (some k) s).lanes = s.lanes ∧ (testBerth (some k) s).cycles = s.cycles := by
  rw [testBerth_eq]
  exact ⟨rfl, rfl, rfl⟩

theorem completionTested_cranes (k : CraneNo) (r : MoveRecord) (s : State) :
    (completionTested k r s).cranes = (testAcceptance k (successorTaken k r s)).cranes := testBerth_cranes ..

theorem completionTested_kept (k : CraneNo) (r : MoveRecord) (s : State) :
    (completionTested k r s).cycles = (measure k r s).cycles ∧
    ((completionTested k r s).cranes[k]).lastCompletion = some s.clock ∧
    ∀ j, queueNumbers (completionTested k r s) j =
      if j = k then (queueNumbers s k).filter fun n => decide (n ≠ r.number) else queueNumbers s j := by
  obtain ⟨cycles, last, numbers⟩ := testAcceptance_kept k (successorTaken k r s)
  obtain ⟨queues, -, berthCycles⟩ := testBerth_kept k (testAcceptance k (successorTaken k r s))
  obtain ⟨promoted, -, -⟩ := promoteStaged_kept k (moveFreed k r s)
  obtain ⟨-, -, freed⟩ := moveFreed_kept k r s
  refine ⟨berthCycles.trans (cycles.trans (promoted.trans freed)), ?_, fun j => ?_⟩
  · rw [completionTested_cranes, last, successorTaken_crane]
  · have same : queueNumbers (completionTested k r s) j = queueNumbers (testAcceptance k (successorTaken k r s)) j := by
      unfold queueNumbers completionTested
      rw [queues]
    rw [same, numbers, successorTaken_numbers]

theorem completionTested_recorded (k : CraneNo) (r : MoveRecord) (s : State) : Recorded 3 (completionTested k r s) :=
  testBerth_recorded k (testAcceptance_recorded k
    ((moveFreed_recorded k r s).of_reports (promoteStaged_kept ..).2.1))

/-- Where a move was STAGED it is promoted, and neither test changes the crane. -/
theorem completionTested_of_staged (staged : (s.cranes[k]).staged = some n) :
    completionTested k r s = testBerth (some k) (successorTaken k r s) := by
  unfold completionTested
  rw [testAcceptance_of_active]
  rw [successorTaken_crane, staged]
  rfl

theorem findIn_successorTaken (staged : (s.cranes[k]).staged = some n) (other : n ≠ r.number) {q : MoveRecord}
    (found : findIn s k n = some q) : ∃ x, findIn (successorTaken k r s) k n = some x ∧ x.number = n ∧ x.kind = q.kind ∧
      x.legs = q.legs ∧ x.state = .active ∧ x.activation = some s.clock ∧ x.progress = some ⟨q.kind.first, false, false⟩ ∧
      x.holdOverlap = (decide (s.berth.state ≠ .running) || (s.cranes[k]).held) := by
  obtain ⟨x, found', left⟩ := findIn_moveFreed other found
  obtain ⟨clock, berth, -⟩ := moveFreed_kept k r s
  have crane := moveFreed_crane k r s
  have written := activate_spec (moveFreed k r s) k x
  rw [left.number, left.kind, left.legs, clock, berth, crane, (findIn_mem found).2] at written
  refine ⟨activate (moveFreed k r s) k x, ?_, written⟩
  rw [successorTaken, findIn_promoteStaged (by rw [crane]; exact staged), found']
  rfl

/-- Where none was, and a directive is pending, it is accepted. -/
theorem completionTested_crane_of_pending (unstaged : (s.cranes[k]).staged = none) (pending : (s.cranes[k]).directive = some d) :
    (completionTested k r s).cranes[k] = { s.cranes[k] with
      lastCompletion := some s.clock, active := none, staged := none
      mode := if d.kind = .withdraw then .withdrawn else (s.cranes[k]).mode, directive := none } := by
  have crane := successorTaken_crane k r s
  rw [unstaged] at crane
  rw [completionTested_cranes, testAcceptance_crane_of_pending (d := d) (by rw [crane]; exact pending) (by rw [crane]), crane]

theorem completionTested_accepted (unstaged : (s.cranes[k]).staged = none) (pending : (s.cranes[k]).directive = some d) :
    Recorded 5 (completionTested k r s) := by
  have crane := successorTaken_crane k r s
  rw [unstaged] at crane
  refine testBerth_recorded k ?_
  rw [testAcceptance_of_pending (d := d) (by rw [crane]; exact pending) (by rw [crane])]
  exact report_recorded _ (.inl rfl)

end Sys2Proof.Machine


/-! PROOFS. What a completion leaves of the pool, the crane, its next move, and the lane slots (R78). -/

namespace Sys2Proof.Machine

variable {s t u : State} {j k : CraneNo} {l : LaneNo} {n m : MoveNo} {r : MoveRecord} {i : Fin 14} {d : PendingDirective}

/-! ### Work after a test of agreement -/

section
variable {v : State} (served : Served k (testAgreement k v) t)
include served

theorem Served.mark : (t.cranes[k]).jobMark = agreement t k := by
  refine served.agreed ?_
  rw [agreement_testAgreement, testAgreement_get, if_pos rfl]

theorem Served.slot (l : LaneNo) : (t.lanes[l]).slot = (v.lanes[l]).slot ∨ (v.lanes[l]).slot ≠ .worked ∧
    ∃ m j, (t.lanes[l]).slot.move = some m ∧ (v.cranes[j]).mode = .inService ∧ m ∈ queueNumbers v j := by
  rcases served.slots l with same | ⟨unworked, m, j, named, serving, mem⟩
  · exact .inl same
  · refine .inr ⟨unworked, m, j, named, ?_, mem⟩
    rw [testAgreement_get] at serving
    split at serving
    · next here => rw [here]; exact serving
    · exact serving

theorem Served.record (once : (queueNumbers v k).Nodup) (mem : r ∈ v.queues[k]) (active : r.state = .active) :
    ∃ r' ∈ t.queues[k], r' = { r with lane := r'.lane, called := r'.called } := served.active once r mem active

theorem Served.activeSlot (out : (v.cranes[k]).mode ≠ .inService ∨ (v.cranes[k]).held = true) :
    (t.cranes[k]).active = (v.cranes[k]).active := by
  have crane := (testAgreement_get k v k).trans (if_pos rfl)
  refine (served.idle ?_).trans (by rw [crane])
  rw [crane]
  exact out

theorem Served.request (out : (v.cranes[k]).mode ≠ .inService) {q : Request} (stands : (t.lanes[l]).request = some q)
    (own : q.crane = k) : (v.lanes[l]).request = some q := by
  have crane := (testAgreement_get k v k).trans (if_pos rfl)
  refine served.requests ?_ l q stands own
  rw [crane]
  exact out

end

/-! ### Numbers -/

theorem pool_nodup_of_sublist (sub : ∀ j, (queueNumbers t j).Sublist (queueNumbers s j))
    (distinct : ((pool s).map (·.number)).Nodup) : ((pool t).map (·.number)).Nodup := by
  have all : ((pool t).map (·.number)).Subperm ((pool s).map (·.number)) := by
    rw [pool_numbers, pool_numbers]
    exact flatMap_subperm (fun j => (sub j).subperm) _
  obtain ⟨l, perm, sub⟩ := all
  exact perm.nodup_iff.1 (distinct.sublist sub)

/-- A number stands in one queue alone. -/
theorem crane_of_number (distinct : ((pool s).map (·.number)).Nodup) (hj : n ∈ queueNumbers s j) (hk : n ∈ queueNumbers s k) :
    j = k := by
  obtain ⟨x, hx, rfl⟩ := List.mem_map.1 hj
  obtain ⟨y, hy, same⟩ := List.mem_map.1 hk
  exact (pool_unique distinct hy hx same.symm).1

section
variable (distinct : ((pool s).map (·.number)).Nodup) (mem : r ∈ s.queues[k])
include distinct

theorem freedNumbers_nodup {v : State} (numbers : ∀ j, queueNumbers v j =
    if j = k then (queueNumbers s k).filter fun n => decide (n ≠ r.number) else queueNumbers s j) :
    ((pool v).map (·.number)).Nodup := by
  refine pool_nodup_of_sublist (fun j => ?_) distinct
  rw [numbers]
  split
  · next here =>
    rw [here]
    exact List.filter_sublist
  · exact .refl _

include mem

/-- The record's number alone has left the pool. -/
theorem freedNumbers_pool {v : State} (numbers : ∀ j, queueNumbers v j =
    if j = k then (queueNumbers s k).filter fun n => decide (n ≠ r.number) else queueNumbers s j) (n : MoveNo) :
    n ∈ (pool v).map (·.number) ↔ n ∈ (pool s).map (·.number) ∧ n ≠ r.number := by
  simp only [pool_numbers, List.mem_flatMap]
  constructor
  · rintro ⟨j, all, here⟩
    rw [numbers] at here
    split at here
    · obtain ⟨old, other⟩ := List.mem_filter.1 here
      exact ⟨⟨k, List.mem_finRange k, old⟩, of_decide_eq_true other⟩
    · next other =>
      refine ⟨⟨j, all, here⟩, fun same => other (crane_of_number distinct here ?_)⟩
      rw [same]
      exact List.mem_map_of_mem mem
  · rintro ⟨⟨j, all, here⟩, other⟩
    refine ⟨j, all, ?_⟩
    rw [numbers]
    split
    · next at_k => exact List.mem_filter.2 ⟨at_k ▸ here, decide_eq_true other⟩
    · exact here

theorem complete_pool (n : MoveNo) :
    n ∈ (pool (complete k r s)).map (·.number) ↔ n ∈ (pool s).map (·.number) ∧ n ≠ r.number := by
  refine .trans ?_ (freedNumbers_pool distinct mem (completionTested_kept k r s).2.2 n)
  exact pool_members_congr (members_of_moves fun j => QReach.moves (complete_quiet k r s) j) n

end

/-! ### The crane and its cycle time -/

theorem complete_recorded (k : CraneNo) (r : MoveRecord) (s : State) : Recorded 3 (complete k r s) :=
  QReach.recorded (complete_quiet k r s) (completionTested_recorded k r s)

theorem complete_crane (k : CraneNo) (r : MoveRecord) (s : State) :
    CraneKeeps (completionTested k r s).cranes[k] (complete k r s).cranes[k] := QReach.crane (complete_quiet k r s) k

theorem complete_lastCompletion (k : CraneNo) (r : MoveRecord) (s : State) :
    ((complete k r s).cranes[k]).lastCompletion = some s.clock :=
  (complete_crane k r s).lastCompletion.trans (completionTested_kept k r s).2.1

theorem complete_jobMark (k : CraneNo) (r : MoveRecord) (s : State) :
    ((complete k r s).cranes[k]).jobMark = agreement (complete k r s) k :=
  (complete_served k r s).mark

theorem complete_cycles (k : CraneNo) (r : MoveRecord) (s : State) : (complete k r s).cycles = (measure k r s).cycles :=
  (QReach.keeps (complete_quiet k r s)).cycles.trans (completionTested_kept k r s).1

theorem cycles_set_self (s : State) (k : CraneNo) : s.cycles.set k s.cycles[k] = s.cycles :=
  Vector.set_getElem_self ..

theorem measure_cycles_of_discarded (discarded : r.holdOverlap = true ∨ r.abandoned = true ∨
    (s.cranes[k]).lastCompletion = none) : (measure k r s).cycles = s.cycles := by
  have yes : Machine.discarded s k r = true := by
    unfold Machine.discarded
    rcases discarded with overlap | abandoned | first
    · simp only [overlap, Bool.true_or]
    · simp only [abandoned, Bool.or_true, Bool.true_or]
    · rw [first]
      simp
  unfold measure
  dsimp only
  rw [if_pos yes]
  exact cycles_set_self s k

theorem measure_cycles_of_taken {y a : Clock} (clear : r.holdOverlap = false) (kept : r.abandoned = false)
    (last : (s.cranes[k]).lastCompletion = some y) (activation : r.activation = some a) : (measure k r s).cycles =
      s.cycles.set k (if r.kind = .dual
        then { s.cycles[k] with dual := smooth s (s.cycles[k]).dual (min (age s.clock y) (age s.clock a)) }
        else { s.cycles[k] with single := smooth s (s.cycles[k]).single (min (age s.clock y) (age s.clock a)) }) := by
  have no : Machine.discarded s k r = false := by
    unfold Machine.discarded
    rw [clear, kept, last]
    rfl
  have time : measured s k r = min (age s.clock y) (age s.clock a) := by
    unfold measured
    rw [last, activation]
    rfl
  unfold measure
  dsimp only
  rw [no, time]
  rfl

/-! ### The next move -/

section
variable (distinct : ((pool s).map (·.number)).Nodup)
include distinct

theorem complete_promoted (staged : (s.cranes[k]).staged = some n) {q : MoveRecord} (found : findIn s k n = some q)
    (other : n ≠ r.number) : ((complete k r s).cranes[k]).active = some n ∧
      ((complete k r s).cranes[k]).mode = (s.cranes[k]).mode ∧
      ((complete k r s).cranes[k]).directive = (s.cranes[k]).directive ∧
      ∃ q', findIn (complete k r s) k n = some q' ∧ q'.kind = q.kind ∧ q'.legs = q.legs ∧ q'.state = .active ∧
        q'.activation = some s.clock ∧ q'.progress = some ⟨q.kind.first, false, false⟩ ∧
        q'.holdOverlap = (decide (s.berth.state ≠ .running) || (s.cranes[k]).held) := by
  have tested := completionTested_of_staged (r := r) staged
  have crane : (completionTested k r s).cranes[k] = { s.cranes[k] with
      lastCompletion := some s.clock, active := some n, staged := none } := by
    rw [tested, testBerth_cranes, successorTaken_crane, staged]
  have kept := complete_crane k r s
  obtain ⟨x, found', number, kind, legs, state, activation, progress, overlap⟩ := findIn_successorTaken staged other found
  have here : x ∈ (completionTested k r s).queues[k] := by
    rw [tested, (testBerth_kept ..).1]
    exact (findIn_mem found').1
  have once : (queueNumbers (completionTested k r s) k).Nodup :=
    queueNumbers_nodup (freedNumbers_nodup distinct (completionTested_kept k r s).2.2) k
  obtain ⟨x', mem', same⟩ := (complete_served k r s).record once here state
  have once' : (queueNumbers (complete k r s) k).Nodup := (QReach.moves (complete_quiet k r s) k).nodup once
  have number' : x'.number = n := by rw [same]; exact number
  refine ⟨kept.active n (by rw [crane]), by rw [kept.mode, crane], by rw [kept.directive, crane], x', ?_, ?_⟩
  · rw [← number']
    exact findIn_of_unique mem' fun y hy => eq_of_number once' hy mem'
  · rw [same]
    exact ⟨kind, legs, state, activation, progress, overlap⟩

end

/-! ### A directive accepted -/

theorem complete_accepted (unstaged : (s.cranes[k]).staged = none) (pending : (s.cranes[k]).directive = some d) :
    ((complete k r s).cranes[k]).directive = none ∧ Recorded 5 (complete k r s) ∧
    ((complete k r s).cranes[k]).held = (s.cranes[k]).held ∧
    ((complete k r s).cranes[k]).mode = (if d.kind = .withdraw then .withdrawn else (s.cranes[k]).mode) ∧
    (d.kind = .withdraw ∨ (s.cranes[k]).held = true → ((complete k r s).cranes[k]).active = none) := by
  have crane := completionTested_crane_of_pending (r := r) unstaged pending
  have kept := complete_crane k r s
  rw [crane] at kept
  refine ⟨kept.directive, QReach.recorded (complete_quiet k r s) (completionTested_accepted unstaged pending), kept.held,
    kept.mode, fun out => ?_⟩
  refine ((complete_served k r s).activeSlot ?_).trans (by rw [crane])
  rw [crane]
  refine out.imp (fun withdraw => ?_) id
  dsimp only
  rw [if_pos withdraw]
  decide

/-! ### The lane slots -/

theorem testAcceptance_lanes_of_withdraw (pending : (s.cranes[k]).directive = some d) (kind : d.kind = .withdraw)
    (inactive : (s.cranes[k]).active = none) : (testAcceptance k s).lanes = (withdrawCrane k s).lanes := by
  rw [testAcceptance_of_pending pending inactive, if_pos kind, accepted_state]
  rfl

theorem testAcceptance_lanes_of_other (other : ∀ d, (s.cranes[k]).directive = some d → d.kind ≠ .withdraw) :
    (testAcceptance k s).lanes = s.lanes := by
  cases pending : (s.cranes[k]).directive with
  | none => rw [testAcceptance_of_no_directive pending]
  | some d =>
    cases active : (s.cranes[k]).active with
    | none =>
      rw [testAcceptance_of_pending pending active, if_neg (other d pending), accepted_state]
      rfl
    | some n => rw [testAcceptance_of_active (by rw [active]; rfl)]

theorem withdrawCrane_worked (worked : (s.lanes[l]).slot = .worked) : ((withdrawCrane k s).lanes[l]).slot = .worked := by
  have free : slotFreed (notActiveOf k) s l = false := by
    unfold slotFreed
    rw [worked]
    rfl
  rw [withdrawCrane_lanes, free]
  exact worked

theorem testAcceptance_worked (worked : (s.lanes[l]).slot = .worked) : ((testAcceptance k s).lanes[l]).slot = .worked := by
  by_cases withdraw : ∃ d, (s.cranes[k]).directive = some d ∧ d.kind = .withdraw
  · obtain ⟨d, pending, kind⟩ := withdraw
    cases active : (s.cranes[k]).active with
    | none =>
      rw [testAcceptance_lanes_of_withdraw pending kind active]
      exact withdrawCrane_worked worked
    | some n =>
      rw [testAcceptance_of_active (by rw [active]; rfl)]
      exact worked
  · rw [testAcceptance_lanes_of_other fun d pending kind => withdraw ⟨d, pending, kind⟩]
    exact worked

theorem promoteStaged_lanes (k : CraneNo) (s : State) : (promoteStaged k s).lanes = s.lanes := by
  unfold promoteStaged
  split <;> rfl

theorem successorTaken_slot (l : LaneNo) : ((successorTaken k r s).lanes[l]).slot = (s.lanes[l]).slot := by
  have lanes : (successorTaken k r s).lanes = (freeRecord k r (measure k r s)).lanes :=
    (promoteStaged_lanes ..).trans (report_lanes ..)
  rw [lanes, freeRecord_lanes]
  rfl

theorem completionTested_lanes (k : CraneNo) (r : MoveRecord) (s : State) :
    (completionTested k r s).lanes = (testAcceptance k (successorTaken k r s)).lanes := (testBerth_kept ..).2.1

theorem complete_worked (worked : (s.lanes[l]).slot = .worked) : ((complete k r s).lanes[l]).slot = .worked := by
  have before : ((completionTested k r s).lanes[l]).slot = .worked := by
    rw [completionTested_lanes]
    exact testAcceptance_worked ((successorTaken_slot l).trans worked)
  rcases (complete_served k r s).slot l with same | ⟨unworked, -⟩
  · exact same.trans before
  · exact absurd before unworked

/-- No slot names a move of a crane taken out of service with no ACTIVE record. -/
theorem withdrawCrane_unnamed (distinct : ((pool s).map (·.number)).Nodup) (calm : ∀ q ∈ s.queues[k], q.state ≠ .active)
    (named : ((withdrawCrane k s).lanes[l]).slot.move = some m) : m ∉ queueNumbers s k := by
  intro mine
  obtain ⟨q, mem, rfl⟩ := List.mem_map.1 mine
  rw [withdrawCrane_lanes] at named
  dsimp only at named
  split at named
  · rw [releasedSlot_move] at named
    cases named
  · next kept =>
    refine kept ?_
    unfold slotFreed
    rw [named, Option.bind_some, findMove_of_mem distinct mem]
    exact decide_eq_true ⟨rfl, calm q mem⟩

section
variable (unstaged : (s.cranes[k]).staged = none) (pending : (s.cranes[k]).directive = some d) (kind : d.kind = .withdraw)
include unstaged pending kind

theorem completionTested_withdrawn : (completionTested k r s).lanes = (withdrawCrane k (successorTaken k r s)).lanes := by
  have crane := successorTaken_crane k r s
  rw [completionTested_lanes, testAcceptance_lanes_of_withdraw (d := d) (by rw [crane]; exact pending) kind
    (by rw [crane]; exact unstaged)]

theorem completionTested_out : ((completionTested k r s).cranes[k]).mode ≠ .inService := by
  rw [completionTested_crane_of_pending unstaged pending, if_pos kind]
  exact Mode.noConfusion

theorem complete_requests {q : Request} (stands : ((complete k r s).lanes[l]).request = some q) : q.crane ≠ k := by
  intro own
  have before := (complete_served k r s).request (completionTested_out unstaged pending kind) stands own
  rw [completionTested_withdrawn unstaged pending kind, withdrawCrane_lanes] at before
  dsimp only at before
  have left := (Option.filter_eq_some_iff.1 before).2
  exact of_decide_eq_true left own

theorem complete_unnamed (distinct : ((pool s).map (·.number)).Nodup)
    (calm : ∀ q ∈ s.queues[k], q.number ≠ r.number → q.state ≠ .active)
    (named : ((complete k r s).lanes[l]).slot.move = some m) : m ∉ queueNumbers (complete k r s) k := by
  intro mine
  have numbers := (completionTested_kept k r s).2.2
  have unique := freedNumbers_nodup distinct numbers
  have mine' : m ∈ queueNumbers (completionTested k r s) k := mem_numbers_of_moves (QReach.moves (complete_quiet k r s) k) mine
  rcases (complete_served k r s).slot l with same | ⟨-, m', j, named', serving, mem⟩
  · rw [same, completionTested_withdrawn unstaged pending kind] at named
    have unique' := freedNumbers_nodup (v := successorTaken k r s) distinct successorTaken_numbers
    refine withdrawCrane_unnamed (s := successorTaken k r s) unique' (fun q mem => ?_) named ?_
    · have crane := moveFreed_crane k r s
      rw [successorTaken, promoteStaged_queues_of_none (by rw [crane]; exact unstaged)] at mem
      obtain ⟨g, queue, left⟩ := moveFreed_queue k r s
      rw [queue] at mem
      obtain ⟨y, old, rfl⟩ := List.mem_map.1 mem
      obtain ⟨here, other⟩ := mem_without.1 old
      exact fun active => calm y here other ((left y).active active)
    · rw [successorTaken_numbers]
      rw [numbers] at mine'
      exact mine'
  · rw [named] at named'
    cases named'
    have here := crane_of_number (s := completionTested k r s) unique mem mine'
    exact completionTested_out unstaged pending kind (here ▸ serving)

end

end Sys2Proof.Machine


/-! PROOFS. The final event of a move (R72, R75 to R78). -/

namespace Sys2Proof.Machine

variable {s t u : State} {k : CraneNo} {n : LaneNo} {x : CraneEventItem} {r : MoveRecord} {l : Leg} {p : Progress}

/-! ### The lane event and the reports before a completion -/

/-- What the serial, the boxes left and a lane event leave of `s`: the record `r`'s hold may be cleared, and the rest of the
move table, the clock, the parameters, the berth and the cycle times stay. -/
structure EventFrame (k : CraneNo) (r : MoveRecord) (s t : State) : Prop where
  clock : t.clock = s.clock
  params : t.params = s.params
  berth : t.berth = s.berth
  cycles : t.cycles = s.cycles
  crane : t.cranes[k] = { s.cranes[k] with serial := (t.cranes[k]).serial }
  records : ∃ f : MoveRecord → MoveRecord, (∀ j : CraneNo, t.queues[j] = (s.queues[j]).map f) ∧
    (∀ y, f y = { y with lane := (f y).lane, called := (f y).called }) ∧ ∀ y, y.number ≠ r.number → f y = y

theorem EventFrame.of_same (clock : t.clock = s.clock) (params : t.params = s.params) (berth : t.berth = s.berth)
    (cycles : t.cycles = s.cycles) (crane : t.cranes[k] = { s.cranes[k] with serial := (t.cranes[k]).serial })
    (queues : t.queues = s.queues) : EventFrame k r s t :=
  ⟨clock, params, berth, cycles, crane, id, fun j => by rw [queues, List.map_id], fun _ => rfl, fun _ _ => rfl⟩

theorem EventFrame.trans (h : EventFrame k r s t) (h' : EventFrame k r t u) : EventFrame k r s u where
  clock := h'.clock.trans h.clock
  params := h'.params.trans h.params
  berth := h'.berth.trans h.berth
  cycles := h'.cycles.trans h.cycles
  crane := by
    have later := h'.crane
    rw [h.crane] at later
    exact later
  records := by
    obtain ⟨f, queues, same, other⟩ := h.records
    obtain ⟨f', queues', same', other'⟩ := h'.records
    refine ⟨f' ∘ f, fun j => by rw [queues', queues, List.map_map], fun y => ?_, fun y away => ?_⟩
    · have later := same' (f y)
      rw [same y] at later
      rw [Function.comp_apply, same y]
      exact later
    · rw [Function.comp_apply, other y away, other' y away]

theorem boxesReported_frame (k : CraneNo) (r : MoveRecord) (l : Leg) (p : Progress) (x : CraneEventItem) (s : State) :
    EventFrame k r s (boxesReported k r l p x s) := by
  have crane : (boxesReported k r l p x s).cranes[k] = { s.cranes[k] with serial := some x.serial } := by
    rw [boxesReported, offered_state]
    exact serialTaken_get ..
  refine .of_same ?_ ?_ ?_ ?_ (by rw [crane]) ?_ <;>
    rw [boxesReported, offered_state, serialTaken_state]

theorem boxesReported_lanes : (boxesReported k r l p x s).lanes = s.lanes := by
  rw [boxesReported, offered_state, serialTaken_state]

theorem boxesReported_queues : (boxesReported k r l p x s).queues = s.queues := by
  rw [boxesReported, offered_state, serialTaken_state]

theorem clearHold_frame (k : CraneNo) (r : MoveRecord) (s : State) : EventFrame k r s (clearHold r.number s) := by
  refine ⟨rfl, rfl, rfl, rfl, rfl, fun y => if y.number = r.number then { y with lane := none, called := false } else y,
    fun j => mapMoves_get .., fun y => ?_, fun y away => if_neg away⟩
  dsimp only
  split <;> rfl

theorem setSlot_frame (l : LaneNo) (y : Slot) (s : State) : EventFrame k r s (setSlot l y s) := by
  rw [setSlot_eq_slotWritten]
  refine .of_same ?_ ?_ ?_ ?_ ?_ ?_ <;> rw [slotWritten_state]

theorem report_frame (i : Items) (s : State) : EventFrame k r s (report i s) := by
  refine .of_same ?_ ?_ ?_ ?_ ?_ ?_ <;> rw [report_state]

theorem forceArrived_frame (l : LaneNo) (m : MoveNo) (s : State) : EventFrame k r s (forceArrived l m s) := by
  unfold forceArrived
  split
  · exact (setSlot_frame ..).trans (report_frame ..)
  · exact .of_same rfl rfl rfl rfl rfl rfl

theorem toLane_frame (r : MoveRecord) (e : CraneEvent) (s : State) : EventFrame k r s (toLane r e s) := by
  unfold toLane
  split
  · split
    · unfold laneEvent
      dsimp only
      split
      · exact (forceArrived_frame ..).trans ((setSlot_frame ..).trans (clearHold_frame ..))
      · exact forceArrived_frame ..
    · exact .of_same rfl rfl rfl rfl rfl rfl
  · exact .of_same rfl rfl rfl rfl rfl rfl

/-! ### The final event -/

/-- The record of the ACTIVE move stands in the queue under its number. -/
theorem findIn_of_matches (matched : EventMatches s k x r l p) : findIn s k r.number = some r := by
  obtain ⟨n, -, found⟩ := Option.bind_eq_some_iff.1 matched.active
  rw [(findIn_mem found).2]
  exact found

theorem findIn_boxesReported (matched : EventMatches s k x r l p) :
    findIn (boxesReported k r l p x s) k r.number = some r := by
  have same : findIn (boxesReported k r l p x s) k r.number = findIn s k r.number := by
    unfold findIn
    rw [boxesReported_queues]
  exact same.trans (findIn_of_matches matched)

/-- A final event that matches completes the move, once its boxes left are reported and its lane event made. -/
theorem craneEvent_of_final (matched : EventMatches s k x r l p) (final : r.kind.after x.event = none) {r' : MoveRecord}
    (found : findIn (toLane r x.event (boxesReported k r l p x s)) k r.number = some r') :
    craneEvent k s x = complete k r' (toLane r x.event (boxesReported k r l p x s)) := by
  have reported : reportLeft k r.number x.event (boxesLeft l p x) (serialTaken k x.serial s) = boxesReported k r l p x s := by
    rw [reportLeft_eq, boxesLeft_eq]
    rfl
  have advanced (t : State) (lift : Bool × Bool) : advance r x.event lift t = t := by
    unfold advance
    rw [final]
  rw [craneEvent_of_matches matched]
  unfold applyEvent
  dsimp only
  rw [reported, advanced, final, found]

theorem slotDone_get (n : LaneNo) (r : MoveRecord) (s : State) : ((slotDone n r s).lanes[n]).slot = .worked := by
  unfold slotDone
  rw [offered_state]
  dsimp only
  rw [modMove_lanes, slotWritten_lanes, Vector.get_set, if_pos rfl]

theorem findIn_slotDone (n : LaneNo) (found : findIn s k r.number = some r) :
    findIn (slotDone n r s) k r.number = some { r with lane := none, called := false } := by
  have queues : (slotDone n r s).queues =
      (modMove r.number (fun y => { y with lane := none, called := false }) (slotWritten n .worked s)).queues := by
    unfold slotDone
    rw [offered_state]
  have same : findIn (slotWritten n .worked s) k r.number = findIn s k r.number := by rw [slotWritten_state]; rfl
  unfold findIn
  rw [queues]
  show findIn (modMove r.number (fun y => { y with lane := none, called := false }) (slotWritten n .worked s)) k r.number = _
  rw [findIn_modMove (f := fun y => { y with lane := none, called := false }) fun _ => rfl, same, found]
  rfl

theorem smooth_congr (params : t.params = s.params) (old m : Nat) : smooth t old m = smooth s old m := by
  unfold smooth par
  rw [params]

end Sys2Proof.Machine


/-! PROOFS. The final event of a move completes it (R75 to R78). -/

namespace Sys2Proof.Machine

variable {s t : State} {k : CraneNo} {n : LaneNo} {x : CraneEventItem} {r r' : MoveRecord} {l : Leg} {p : Progress}

/-! ### The frame of the lane event read back on the state before -/

section
variable (h : EventFrame k r s t)
include h

theorem EventFrame.numbers (j : CraneNo) : queueNumbers t j = queueNumbers s j := by
  obtain ⟨f, queues, same, -⟩ := h.records
  exact queueNumbers_map (queues j) fun y => by rw [same]

theorem EventFrame.pool : (pool t).map (·.number) = (Machine.pool s).map (·.number) := pool_numbers_congr h.numbers

/-- Every record of another number is found as it was. -/
theorem EventFrame.findIn_other {m : MoveNo} (other : m ≠ r.number) : findIn t k m = findIn s k m := by
  obtain ⟨f, queues, same, rest⟩ := h.records
  rw [findIn_of_queue (queues k) fun y => by rw [same]]
  cases found : findIn s k m with
  | none => rfl
  | some q =>
    rw [Option.map_some, rest q]
    rw [(findIn_mem found).2]
    exact other

/-- The record itself is found but for its hold. -/
theorem EventFrame.findIn_self (found : findIn s k r.number = some r) :
    ∃ r', findIn t k r.number = some r' ∧ r' = { r with lane := r'.lane, called := r'.called } := by
  obtain ⟨f, queues, same, -⟩ := h.records
  refine ⟨f r, ?_, same r⟩
  rw [findIn_of_queue (queues k) fun y => by rw [same], found]
  rfl

/-- Another ACTIVE record of the queue was one before. -/
theorem EventFrame.calm (before : ∀ q ∈ s.queues[k], q.number ≠ r.number → q.state ≠ .active) :
    ∀ q ∈ t.queues[k], q.number ≠ r.number → q.state ≠ .active := by
  obtain ⟨f, queues, same, -⟩ := h.records
  intro q mem other
  rw [queues] at mem
  obtain ⟨y, old, rfl⟩ := List.mem_map.1 mem
  rw [same] at other ⊢
  exact before y old other

end

/-! ### The completion in its two written forms -/

/-- With no lane event the completion starts where the boxes left have been reported. -/
theorem completed_of_vessel (matched : EventMatches s k x r l p) (final : r.kind.after x.event = none)
    (free : x.event = .setV ∨ r.lane = none) : Completed k r (boxesReported k r l p x s) (craneEvent k s x) := by
  have skipped (t : State) : toLane r x.event t = t := by
    rcases free with vessel | unheld
    · exact toLane_of_vessel (by rw [vessel]; rfl) t
    · exact toLane_of_none unheld _ t
  have found := findIn_boxesReported matched
  rw [craneEvent_of_final matched final (r' := r) (by rw [skipped]; exact found), skipped]
  exact complete_completed ..

/-- A final set into the lane leaves the slot WORKED, and the completion starts there. -/
theorem completed_of_lane (matched : EventMatches s k x r l p) (final : r.kind.after x.event = none)
    (event : x.event = .setL) (held : r.lane = some n) (kind : r.kind = .discharge ∨ r.kind = .dual)
    (here : (s.lanes[n]).slot = .called r.number ∨ (s.lanes[n]).slot = .arrived r.number) :
    Completed k { r with lane := none, called := false } (slotDone n r (boxesReported k r l p x s)) (craneEvent k s x) ∧
    ((craneEvent k s x).lanes[n]).slot = .worked := by
  have last : r.kind.lastLane = some x.event := by
    rw [event]
    rcases kind with discharge | dual
    · rw [discharge]
      rfl
    · rw [dual]
      rfl
  have here' : ((boxesReported k r l p x s).lanes[n]).slot = .called r.number ∨
      ((boxesReported k r l p x s).lanes[n]).slot = .arrived r.number := by
    rw [boxesReported_lanes]
    exact here
  have done : toLane r x.event (boxesReported k r l p x s) = slotDone n r (boxesReported k r l p x s) := by
    rw [toLane_of_lane held (by rw [event]; rfl), decide_eq_true last, laneEvent_last here']
  have found := findIn_boxesReported matched
  rw [craneEvent_of_final matched final (by rw [done]; exact findIn_slotDone n found), done]
  exact ⟨complete_completed .., complete_worked (slotDone_get ..)⟩

/-! ### What the completion leaves, read on the state before the event -/

/-- The completion of `r'`, which is `r` but for its hold, after a lane event from `s`. -/
structure FinalEvent (k : CraneNo) (r r' : MoveRecord) (s e : State) : Prop where
  distinct : ((pool s).map (·.number)).Nodup
  frame : EventFrame k r s e
  found : findIn e k r.number = some r'
  same : r' = { r with lane := r'.lane, called := r'.called }

section
variable {e : State} (h : FinalEvent k r r' s e)
include h

theorem FinalEvent.number : r'.number = r.number := by rw [h.same]

theorem FinalEvent.distinct' : ((pool e).map (·.number)).Nodup := h.frame.pool ▸ h.distinct

end

/-- What the completion of `r` on crane `k` makes of the state `s` before its final event. -/
structure FinalEffects (k : CraneNo) (r : MoveRecord) (s t : State) : Prop where
  pool : ∀ m, m ∈ (pool t).map (·.number) ↔ m ∈ (pool s).map (·.number) ∧ m ≠ r.number
  recorded : Recorded 3 t
  lastCompletion : (t.cranes[k]).lastCompletion = some s.clock
  jobMark : (t.cranes[k]).jobMark = agreement t k
  cycles_of_discarded : r.holdOverlap = true ∨ r.abandoned = true ∨ (s.cranes[k]).lastCompletion = none → t.cycles = s.cycles
  cycles_of_taken : ∀ y a, r.activation = some a → r.holdOverlap = false → r.abandoned = false →
    (s.cranes[k]).lastCompletion = some y → t.cycles = s.cycles.set k (if r.kind = .dual
      then { s.cycles[k] with dual := smooth s (s.cycles[k]).dual (min (age s.clock y) (age s.clock a)) }
      else { s.cycles[k] with single := smooth s (s.cycles[k]).single (min (age s.clock y) (age s.clock a)) })
  promoted : ∀ m q, (s.cranes[k]).staged = some m → findIn s k m = some q → m ≠ r.number →
    (t.cranes[k]).active = some m ∧ (t.cranes[k]).mode = (s.cranes[k]).mode ∧
    (t.cranes[k]).directive = (s.cranes[k]).directive ∧
    ∃ q', findIn t k m = some q' ∧ q'.kind = q.kind ∧ q'.legs = q.legs ∧ q'.state = .active ∧
      q'.activation = some s.clock ∧ q'.progress = some ⟨q.kind.first, false, false⟩ ∧
      q'.holdOverlap = (decide (s.berth.state ≠ .running) || (s.cranes[k]).held)
  accepted : ∀ d, (s.cranes[k]).staged = none → (s.cranes[k]).directive = some d →
    (t.cranes[k]).directive = none ∧ Recorded 5 t ∧ (t.cranes[k]).held = (s.cranes[k]).held ∧
    (t.cranes[k]).mode = (if d.kind = .withdraw then .withdrawn else (s.cranes[k]).mode) ∧
    (d.kind = .withdraw ∨ (s.cranes[k]).held = true → (t.cranes[k]).active = none)
  requests : ∀ d, (s.cranes[k]).staged = none → (s.cranes[k]).directive = some d → d.kind = .withdraw →
    ∀ (i : LaneNo) (q : Request), (t.lanes[i]).request = some q → q.crane ≠ k
  slots : ∀ d, (s.cranes[k]).staged = none → (s.cranes[k]).directive = some d → d.kind = .withdraw →
    (∀ q ∈ s.queues[k], q.number ≠ r.number → q.state ≠ .active) →
    ∀ (i : LaneNo) (m : MoveNo), (t.lanes[i]).slot.move = some m → m ∉ queueNumbers t k

theorem FinalEvent.effects {e : State} (h : FinalEvent k r r' s e) : FinalEffects k r s (complete k r' e) where
  pool m := by rw [complete_pool h.distinct' (findIn_mem h.found).1, h.frame.pool, h.number]
  recorded := complete_recorded ..
  lastCompletion := by rw [complete_lastCompletion, h.frame.clock]
  jobMark := complete_jobMark ..
  cycles_of_discarded discarded := by
    rw [complete_cycles, measure_cycles_of_discarded, h.frame.cycles]
    rw [h.same, h.frame.crane]
    exact discarded
  cycles_of_taken y a activation clear kept last := by
    have kind : r'.kind = r.kind := by rw [h.same]
    rw [complete_cycles, measure_cycles_of_taken (y := y) (a := a) (by rw [h.same]; exact clear) (by rw [h.same]; exact kept)
      (by rw [h.frame.crane]; exact last) (by rw [h.same]; exact activation), kind, h.frame.cycles, h.frame.clock,
      smooth_congr h.frame.params, smooth_congr h.frame.params]
  promoted m q staged found other := by
    have done := complete_promoted (r := r') h.distinct' (by rw [h.frame.crane]; exact staged)
      ((h.frame.findIn_other other).trans found) (by rw [h.number]; exact other)
    rw [h.frame.clock, h.frame.berth, h.frame.crane] at done
    exact done
  accepted d unstaged pending := by
    have done := complete_accepted (r := r') (s := e) (k := k) (d := d) (by rw [h.frame.crane]; exact unstaged)
      (by rw [h.frame.crane]; exact pending)
    rw [h.frame.crane] at done
    exact done
  requests d unstaged pending kind i q stands :=
    complete_requests (s := e) (r := r') (l := i) (d := d) (by rw [h.frame.crane]; exact unstaged)
      (by rw [h.frame.crane]; exact pending) kind stands
  slots d unstaged pending kind calm i m named :=
    complete_unnamed (s := e) (r := r') (l := i) (d := d) (by rw [h.frame.crane]; exact unstaged)
      (by rw [h.frame.crane]; exact pending) kind h.distinct' (by rw [h.number]; exact h.frame.calm calm) named

/-- Settles O59: the event's serial and boxes left, the lane event, and the completion in its stages. -/
theorem finalEventCompletes : Obligations.FinalEventCompletes := by
  intro s k x r l p a matched distinct final activation
  have frame : EventFrame k r s (toLane r x.event (boxesReported k r l p x s)) :=
    (boxesReported_frame ..).trans (toLane_frame ..)
  obtain ⟨r', found, same⟩ := frame.findIn_self (findIn_of_matches matched)
  have effects : FinalEffects k r s (craneEvent k s x) := by
    rw [craneEvent_of_final matched final found]
    exact FinalEvent.effects ⟨distinct, frame, found, same⟩
  have vessel := completed_of_vessel matched final
  have lane := fun n => completed_of_lane (n := n) matched final
  generalize craneEvent k s x = t at effects vessel lane ⊢
  refine ⟨vessel, lane, effects.pool, effects.recorded, effects.lastCompletion, effects.jobMark, effects.cycles_of_discarded,
    fun y => effects.cycles_of_taken y a activation, effects.promoted, fun d unstaged pending => ?_⟩
  obtain ⟨directive, recorded, held, mode, inactive⟩ := effects.accepted d unstaged pending
  refine ⟨directive, recorded, held, fun kind holds => ⟨?_, inactive (.inr holds)⟩, fun kind => ⟨?_, inactive (.inl kind),
    effects.requests d unstaged pending kind, fun calm i m named q mem same => ?_⟩⟩
  · rw [mode, kind]
    rfl
  · rw [mode, if_pos kind]
  · exact effects.slots d unstaged pending kind calm i m named (same ▸ List.mem_map_of_mem mem)

end Sys2Proof.Machine
